-- ==== Sys2Proof/Word.lean ====
section
/-! DEFINITION. The widths the block works at: bytes, 16-bit fields, 3-bit indices and the 19-bit command word. -/

namespace Sys2Proof

/-- An 8-bit value: a frame byte, the CMD register, the CRC accumulator (spec/10_state.md R21, R25). -/
abbrev Byte := BitVec 8

/-- A 16-bit value: a field register, `wdata`, the STATUS word (R22 to R24, R20, R32). -/
abbrev Half := BitVec 16

/-- A 3-bit value: `op`, BYTE_IDX, BIT_IDX (R20, R29, R30). -/
abbrev Idx3 := BitVec 3

/-- A command word CW, 19 bits (spec/30_encoding.md R70). -/
abbrev CW := BitVec 19

end Sys2Proof
end

