-- ==== Sys2Proof/Syntax.lean ====
section
/-! DEFINITION. The eight commands of the opcode table (spec/30_encoding.md R73) and the lines of the command-sequence language (R77, R78). -/

namespace Sys2Proof

/-- One constructor per row of spec/opcode_table.json. An operand has the width R72 gives it; the bits of `wdata` a command
ignores are no part of the command. -/
inductive Instr where
  /-- NOP (R130): no command. -/
  | nop
  /-- WR_CMD (R101): write the `command` field with `wdata[7:0]`. -/
  | wrCmd (imm8 : Byte)
  /-- WR_ADDR (R102): write the `address` field. -/
  | wrAddr (imm16 : Half)
  /-- WR_DATA (R103): write the `data` field. -/
  | wrData (imm16 : Half)
  /-- WR_DEVID (R104): write the `device_id` field. -/
  | wrDevid (imm16 : Half)
  /-- START (R131): begin a computation over the current frame. -/
  | start
  /-- RESERVED_6, opcode 110 (R172). -/
  | reserved6
  /-- RESERVED_7, opcode 111 (R172). -/
  | reserved7
  deriving DecidableEq, Repr

/-- One line of the command-sequence language: the six mnemonics and `.word` of R77, the pseudo-instructions of R78. Operands
are numbers as written, so they are not yet bounded by a field's width. -/
inductive AsmLine where
  /-- `NOP` (R77). -/
  | nop
  /-- `WR_CMD imm8` (R77). -/
  | wrCmd (n : Nat)
  /-- `WR_ADDR imm16` (R77). -/
  | wrAddr (n : Nat)
  /-- `WR_DATA imm16` (R77). -/
  | wrData (n : Nat)
  /-- `WR_DEVID imm16` (R77). -/
  | wrDevid (n : Nat)
  /-- `START` (R77). -/
  | start
  /-- `.word v`: present the 19-bit value v as one command (R77). -/
  | word (n : Nat)
  /-- `WAIT n`: n copies of NOP (R78). -/
  | wait (n : Nat)
  /-- `RESET`: one cycle with `rst = 1` and `op = NOP` (R78). -/
  | reset
  /-- `COMPUTE c, a, d, v` (R78). -/
  | compute (c a d v : Nat)
  deriving DecidableEq, Repr

end Sys2Proof
end

