-- ==== Sys2Proof/WellFormed.lean ====
section
/-! DEFINITION. Well-formedness checks: a number that is a command word (R70), an assembler line whose operands fit their fields (R77). An `Instr` needs none: its operands are bit vectors of the field's width. -/

namespace Sys2Proof

/-- A number is a command word when it has 19 bits (R70: "A command is one 19-bit word CW"). -/
def wordFits (w : Nat) : Bool := decide (w < 2 ^ 19)

/-- An operand of WR_CMD is refused "above 0xFF" (R77). -/
def imm8Fits (n : Nat) : Bool := decide (n ≤ 0xFF)

/-- An operand of the other writes is refused "above 0xFFFF" (R77). -/
def imm16Fits (n : Nat) : Bool := decide (n ≤ 0xFFFF)

/-- A line the assembler accepts: every operand within its field's width (R77), a COMPUTE's operands as its expansion's (R78). -/
def AsmLine.wellFormed : AsmLine → Bool
  | .nop => true
  | .wrCmd n => imm8Fits n
  | .wrAddr n => imm16Fits n
  | .wrData n => imm16Fits n
  | .wrDevid n => imm16Fits n
  | .start => true
  | .word n => wordFits n
  | .wait _ => true
  | .reset => true
  | .compute c a d v => imm8Fits c && imm16Fits a && imm16Fits d && imm16Fits v

end Sys2Proof
end

