-- ==== Sys2Proof/Decode.lean ====
section
/-! DEFINITION. The command word (spec/30_encoding.md R70 to R76): its fields, the total decoder, and the encoder written from the same table. -/

namespace Sys2Proof

/-- `op`, CW[18:16] (R70, R71). -/
def opOf (w : CW) : Idx3 := w.extractLsb' 16 3

/-- `wdata`, CW[15:0] (R70, R72). -/
def wdataOf (w : CW) : Half := w.extractLsb' 0 16

/-- The command word of the inputs `op` and `wdata`, `op << 16 | wdata` (R70): CW[18:16] = op and CW[15:0] = wdata. -/
def commandWord (op : Idx3) (wdata : Half) : CW := (op.setWidth 19 <<< 16) ||| wdata.setWidth 19

/-- The 8-bit operand of WR_CMD: `wdata[7:0]`; `wdata[15:8]` is ignored, so the value is masked (R72). -/
def imm8Of (wdata : Half) : Byte := wdata.extractLsb' 0 8

/-- The 16-bit operand of the other writes: all of `wdata` (R72). -/
def imm16Of (wdata : Half) : Half := wdata

/-- The opcode map of R73: which `op` selects which command. -/
def Instr.opcode : Instr → Idx3
  | .nop => 0b000#3
  | .wrCmd _ => 0b001#3
  | .wrAddr _ => 0b010#3
  | .wrData _ => 0b011#3
  | .wrDevid _ => 0b100#3
  | .start => 0b101#3
  | .reserved6 => 0b110#3
  | .reserved7 => 0b111#3

/-- The command that the inputs `op` and `wdata` select (R73). Total: the last alternative is op = 111, the one value left (R75). -/
def decodeFields (op : Idx3) (wdata : Half) : Instr :=
  if op = 0b000#3 then .nop
  else if op = 0b001#3 then .wrCmd (imm8Of wdata)
  else if op = 0b010#3 then .wrAddr (imm16Of wdata)
  else if op = 0b011#3 then .wrData (imm16Of wdata)
  else if op = 0b100#3 then .wrDevid (imm16Of wdata)
  else if op = 0b101#3 then .start
  else if op = 0b110#3 then .reserved6
  else .reserved7

/-- Decode a command word (R73, R75: "The decoder is total"). -/
def decode (w : CW) : Instr := decodeFields (opOf w) (wdataOf w)

/-- Why a number is no command: the decoder of words refuses nothing (R75), so this is the only reason. -/
inductive DecodeRefusal where
  /-- The number has a bit above bit 18: it is no 19-bit word, and the port cannot present it (R70). Safe: no instruction is
  lost by it. -/
  | wordTooWide
  deriving DecidableEq, Repr

/-- Decode a number: refused by name unless it is a 19-bit word. -/
def decodeWord (w : Nat) : Except DecodeRefusal Instr :=
  if wordFits w then .ok (decode (BitVec.ofNat 19 w)) else .error .wordTooWide

/-- The instruction the decoder reads from an instruction whose low `nbits` bits are w and whose other bits are 0, numbered
as spec/opcode_table.json numbers them (CW[18] is bit 18). -/
def decodeTableWord (nbits w : Nat) : Option Instr := (decodeWord (w % 2 ^ nbits)).toOption

/-- The `wdata` the assembler emits: the operand, and 0 in every bit the command ignores (R77). -/
def Instr.wdata : Instr → Half
  | .nop => 0#16
  | .wrCmd imm8 => imm8.setWidth 16
  | .wrAddr imm16 => imm16
  | .wrData imm16 => imm16
  | .wrDevid imm16 => imm16
  | .start => 0#16
  | .reserved6 => 0#16
  | .reserved7 => 0#16

/-- The word of an instruction (R73, R77). -/
def encode (i : Instr) : CW := commandWord i.opcode i.wdata

/-- The bits of its word that an instruction uses: the three opcode bits, and the operand bits that the table's `encoding`
marks `i` (R73); it ignores the others. -/
def Instr.usedBits : Instr → CW
  | .nop => 0x70000#19
  | .wrCmd _ => 0x700FF#19
  | .wrAddr _ => 0x7FFFF#19
  | .wrData _ => 0x7FFFF#19
  | .wrDevid _ => 0x7FFFF#19
  | .start => 0x70000#19
  | .reserved6 => 0x70000#19
  | .reserved7 => 0x70000#19

end Sys2Proof
end

