-- ==== Sys2Proof/Machine/Crc.lean ====
section
/-! DEFINITION. The pure CRC-8 functions (spec/41_crc_engine.md R132 to R134, parameters R2 and R6). -/

namespace Sys2Proof.Machine

/-- POLY, the low eight coefficients of x^8 + x^2 + x + 1 (R2, R6). -/
def poly : Byte := 0x07#8

/-- INIT, the accumulator's value at the start of a computation (R2, R6). -/
def crcInit : Byte := 0x00#8

/-- CRC8_STEP (R132): shift left by one; if bit 7 was shifted out, XOR the polynomial. -/
def crc8Step (t : Byte) : Byte :=
  if t.getLsbD 7 then (t <<< 1) ^^^ poly else t <<< 1

/-- n bit steps (R133, "repeat"). -/
def crc8Steps : Nat → Byte → Byte
  | 0, t => t
  | n + 1, t => crc8Steps n (crc8Step t)

/-- One byte of the fold: XOR the byte in, then eight bit steps (R133, steps 3a and 3b). -/
def crc8Byte (crc b : Byte) : Byte := crc8Steps 8 (crc ^^^ b)

/-- The fold from an accumulator (R133, step 3). -/
def crc8From : Byte → List Byte → Byte
  | crc, [] => crc
  | crc, b :: bs => crc8From (crc8Byte crc b) bs

/-- CRC8 (R133): the fold from INIT. -/
def crc8 (bs : List Byte) : Byte := crc8From crcInit bs

/-- The low byte of a 16-bit field, `v[7:0]` (spec/20_memory.md R53). -/
def lowByte (v : Half) : Byte := v.extractLsb' 0 8

/-- The high byte of a 16-bit field, `v[15:8]` (R53). -/
def highByte (v : Half) : Byte := v.extractLsb' 8 8

/-- The seven bytes of the frame of four fields, little-endian (R53, R134). -/
def frameBytes (c : Byte) (a d v : Half) : List Byte :=
  [c, lowByte a, highByte a, lowByte d, highByte d, lowByte v, highByte v]

/-- `compute` (R134): the CRC of the frame of four fields. -/
def compute (c : Byte) (a d v : Half) : Byte := crc8 (frameBytes c a d v)

end Sys2Proof.Machine
end

