-- ==== Sys2Proof/Config.lean ====
section
/-! DEFINITION. What the spec leaves to the platform or leaves open: the number of instances and the power-up contents of the ten registers. None has a body, so no proof can see a value.

The parameters the spec FIXES (R6) are definitions of the machine, where a repair can reach them: the polynomial and the initial value in Machine/Crc.lean, the frame length and the bits per byte in Machine/Operands.lean. -/

namespace Sys2Proof

/-- INSTANCE_COUNT, how many instances of the block a system has: OPEN in R6 and R179, decision D19, a parameter by U12.
Log entry 4. -/
opaque Config.instanceCount : Nat

/-! The contents of the ten registers before the first edge with `rst = 1` (R191, U1): unspecified, each any value of its
width, with no invariant promised. Log entry 3. -/

/-- CMD at power-up (R191). -/
opaque Config.powerUpCmd : Byte
/-- ADDR at power-up (R191). -/
opaque Config.powerUpAddr : Half
/-- DATA at power-up (R191). -/
opaque Config.powerUpData : Half
/-- DEVID at power-up (R191). -/
opaque Config.powerUpDevid : Half
/-- CRC at power-up (R191). -/
opaque Config.powerUpCrc : Byte
/-- BUSY at power-up (R191). -/
opaque Config.powerUpBusy : Bool
/-- DONE at power-up (R191). -/
opaque Config.powerUpDone : Bool
/-- ERR at power-up (R191). -/
opaque Config.powerUpErr : Bool
/-- BYTE_IDX at power-up (R191). -/
opaque Config.powerUpByteIdx : Idx3
/-- BIT_IDX at power-up (R191). -/
opaque Config.powerUpBitIdx : Idx3

end Sys2Proof
end

