-- ==== Sys2Proof/Machine/State.lean ====
section
/-! DEFINITION. The state of the block: the ten registers of spec/10_state.md R21 to R30 (73 bits, R36), and the inputs the host is going to present (the model's own field). -/

namespace Sys2Proof.Machine

/-- What the host drives on the input ports at one rising edge of `clk` (R20). -/
structure PortInput where
  /-- `rst`, synchronous reset, active high (R190). -/
  rst : Bool
  /-- `op`, the command opcode (R71). -/
  op : Idx3
  /-- `wdata`, the command write data (R72). -/
  wdata : Half
  deriving DecidableEq, Repr

/-- The architectural state. Its ten registers are exactly those of R36; the last field is the model's. -/
structure State where
  /-- CMD, the `command` field (R21). -/
  cmd : Byte
  /-- ADDR, the `address` field (R22). -/
  addr : Half
  /-- DATA, the `data` field (R23). -/
  data : Half
  /-- DEVID, the `device_id` field (R24). -/
  devid : Half
  /-- CRC, the accumulator (R25). -/
  crc : Byte
  /-- BUSY: a computation is in progress (R26). -/
  busy : Bool
  /-- DONE: CRC holds the result of a completed computation (R27). -/
  done : Bool
  /-- ERR, sticky: a command was dropped or reserved (R28). -/
  err : Bool
  /-- BYTE_IDX, the index of the frame byte being folded (R29). -/
  byteIdx : Idx3
  /-- BIT_IDX, the bit steps already done on the current byte (R30). -/
  bitIdx : Idx3
  /-- The values the host presents on the input ports at the coming rising edges, the next edge's first. Not a register: the
  block has no queue (R37); it is the environment of the closed machine. Log entry 1. -/
  inputs : List PortInput
  deriving DecidableEq, Repr

/-- Why a step stops with a fault. There is no constructor: "The block raises no exception, takes no trap and has no cause
code" (spec/60_exceptions.md R170), and every command in every state has a next state (R75, R151). -/
inductive Fault where
  deriving DecidableEq, Repr

/-- Why an instruction has no meaning. -/
inductive Refusal where
  /-- Raised by `exec` for an instruction that has no meaning yet; no instruction is left so. Safe: it proves nothing. -/
  | notModelled (mnemonic : String)
  deriving DecidableEq, Repr

/-- RESET_STATE (spec/70_reset_and_hazards.md R190), with no input listed yet. -/
def State.reset : State where
  cmd := 0x00#8
  addr := 0x0000#16
  data := 0x0000#16
  devid := 0x0000#16
  crc := 0x00#8
  busy := false
  done := false
  err := false
  byteIdx := 0#3
  bitIdx := 0#3
  inputs := []

/-- The state before the first rising edge with `rst = 1`: every register holds an unknown value (R191, U1). Log entry 3.
An edge with `rst = 0` from it, and its outputs, are the model's choice: log entry 12. -/
def State.powerUp (inputs : List PortInput) : State where
  cmd := Config.powerUpCmd
  addr := Config.powerUpAddr
  data := Config.powerUpData
  devid := Config.powerUpDevid
  crc := Config.powerUpCrc
  busy := Config.powerUpBusy
  done := Config.powerUpDone
  err := Config.powerUpErr
  byteIdx := Config.powerUpByteIdx
  bitIdx := Config.powerUpBitIdx
  inputs := inputs

end Sys2Proof.Machine
end

