-- ==== Sys2Proof/Machine/Operands.lean ====
section
/-! DEFINITION. The frame builder's byte multiplexer, the block's only read primitive (spec/40_frame_builder.md R105, R8), and its `fbyte` output (R34). -/

namespace Sys2Proof.Machine

/-- FRAME_LEN, the frame's length in bytes (R6). -/
def frameLen : Nat := 7

/-- Bits per frame byte (R6). -/
def bitsPerByte : Nat := 8

/-- The last frame index (R142: `s.BYTE_IDX = 6`). -/
def lastByte : Idx3 := 6#3

/-- The last bit step of a byte (R142: `s.BIT_IDX = 7`). -/
def lastBit : Idx3 := 7#3

/-- FRAME(s, i) (R105), a 7-way byte multiplexer over the field registers; index 7 reads 0x00. -/
def State.frameByte (s : State) (i : Idx3) : Byte :=
  if i = 0#3 then s.cmd
  else if i = 1#3 then lowByte s.addr
  else if i = 2#3 then highByte s.addr
  else if i = 3#3 then lowByte s.data
  else if i = 4#3 then highByte s.data
  else if i = 5#3 then lowByte s.devid
  else if i = 6#3 then highByte s.devid
  else 0x00#8

/-- The frame as a sequence: FRAME(s, 0) to FRAME(s, 6), exactly seven bytes (R105, R51). -/
def State.frame (s : State) : List Byte :=
  [s.frameByte 0#3, s.frameByte 1#3, s.frameByte 2#3, s.frameByte 3#3, s.frameByte 4#3, s.frameByte 5#3, s.frameByte 6#3]

/-- The output `fbyte`: the multiplexer at BYTE_IDX (R34). -/
def State.fbyte (s : State) : Byte := s.frameByte s.byteIdx

end Sys2Proof.Machine
end

