-- ==== Sys2Proof/Machine/Flags.lean ====
section
/-! DEFINITION. The flags BUSY, DONE and ERR as commands write them, and the outputs `status` and `crc_out` (spec/10_state.md R32, R33). -/

namespace Sys2Proof.Machine

/-- ERR <- 1: what the block does in place of an exception, for a dropped or reserved command, and nothing else (R171). -/
def State.setErr (s : State) : State := { s with err := true }

/-- The flags of an accepted START: BUSY <- 1, DONE <- 0, ERR <- 0 (R131). -/
def State.flagsStarted (s : State) : State := { s with busy := true, done := false, err := false }

/-- The flags of the final bit step: BUSY <- 0, DONE <- 1 (R142). -/
def State.flagsCompleted (s : State) : State := { s with busy := false, done := true }

/-- STATUS (R32): BYTE_IDX at bits 10:8, BIT_IDX at bits 6:4, ERR at bit 2, DONE at bit 1, BUSY at bit 0; the reserved bits
15:11, 7 and 3 read 0. -/
def State.status (s : State) : Half :=
  (s.byteIdx.setWidth 16 <<< 8) ||| (s.bitIdx.setWidth 16 <<< 4) ||| ((BitVec.ofBool s.err).setWidth 16 <<< 2) |||
    ((BitVec.ofBool s.done).setWidth 16 <<< 1) ||| (BitVec.ofBool s.busy).setWidth 16

/-- The output `crc_out`: the CRC register at all times (R33). -/
def State.crcOut (s : State) : Byte := s.crc

end Sys2Proof.Machine
end

