-- ==== Sys2Proof/Machine/Ops.lean ====
section
/-! DEFINITION. The shared operations over the registers: register writes, accepting or dropping a command, the bit step and its counters, reset, and sampling the input ports. -/

namespace Sys2Proof.Machine

/-! The input ports (spec/30_encoding.md R70, spec/10_state.md R20). -/

/-- A host with nothing to do presents NOP (R70), and does not reset. -/
def PortInput.idle : PortInput := { rst := false, op := 0b000#3, wdata := 0#16 }

/-- One cycle of reset: `rst = 1` and `op = NOP` (R78, RESET). -/
def PortInput.resetCycle : PortInput := { rst := true, op := 0b000#3, wdata := 0#16 }

/-- The inputs that present a command word (R70). -/
def PortInput.ofWord (w : CW) : PortInput := { rst := false, op := opOf w, wdata := wdataOf w }

/-- The command word the inputs form (R70). -/
def PortInput.word (p : PortInput) : CW := commandWord p.op p.wdata

/-- What the next rising edge samples: the first listed input, and NOP where none is listed (R70). Log entry 1. -/
def State.port (s : State) : PortInput := s.inputs.headD PortInput.idle

/-- The state with the sampled input gone. -/
def State.consume (s : State) : State := { s with inputs := s.inputs.tail }

/-- The state with other inputs to come; its registers are unchanged. -/
def State.withInputs (s : State) (ps : List PortInput) : State := { s with inputs := ps }

/-! Register writes. -/

/-- CMD <- v (R101). -/
def State.setCmd (s : State) (v : Byte) : State := { s with cmd := v }

/-- ADDR <- v (R102). -/
def State.setAddr (s : State) (v : Half) : State := { s with addr := v }

/-- DATA <- v (R103). -/
def State.setData (s : State) (v : Half) : State := { s with data := v }

/-- DEVID <- v (R104). -/
def State.setDevid (s : State) (v : Half) : State := { s with devid := v }

/-- CRC <- v (R25). -/
def State.setCrc (s : State) (v : Byte) : State := { s with crc := v }

/-- BYTE_IDX <- byte and BIT_IDX <- bit (R29, R30). -/
def State.setCounters (s : State) (byte bit : Idx3) : State := { s with byteIdx := byte, bitIdx := bit }

/-! Commands (part (B) of R150). -/

/-- A field write or START is accepted when BUSY = 0 in the state it sees, and then has its effect; when BUSY = 1 it is dropped:
ERR <- 1 and nothing else (R100, R106, R131, R171). -/
def State.acceptOrDrop (s : State) (effect : State) : State := if s.busy then s.setErr else effect

/-- The six writes of an accepted START (R131). -/
def State.startFold (s : State) : State := ((s.setCrc crcInit).setCounters 0#3 0#3).flagsStarted

/-! The sequencer (part (A) of R150). -/

/-- What the bit step feeds to CRC8_STEP: the frame byte is XORed in at the first bit step of the byte (R140). -/
def State.stepInput (s : State) : Byte := if s.bitIdx = 0#3 then s.crc ^^^ s.frameByte s.byteIdx else s.crc

/-- Advance and completion (R142). BYTE_IDX is 3 bits wide, so its increment is modulo 8. -/
def State.advance (s : State) : State :=
  if s.bitIdx = lastBit then
    if s.byteIdx = lastByte then (s.setCounters 0#3 0#3).flagsCompleted
    else s.setCounters (s.byteIdx + 1#3) 0#3
  else s.setCounters s.byteIdx (s.bitIdx + 1#3)

/-- The bit step with its advance (R140, R142). -/
def State.bitStep (s : State) : State := s.advance.setCrc (crc8Step s.stepInput)

/-- Part (A): a bit step if `busy`, nothing otherwise (R140). `busy` is BUSY of the pre-state; `n` is the state the command
left. While busy a command writes at most ERR, which the bit step neither reads nor writes, so the bit step of `n` is that of
the pre-state (R150). -/
def State.sequencer (busy : Bool) (n : State) : State := if busy then n.bitStep else n

/-! Reset. -/

/-- An edge with `rst = 1`: RESET_STATE whatever the state (R190). The inputs still to come are the host's, not registers. -/
def State.resetRegs (s : State) : State := { State.reset with inputs := s.inputs }

end Sys2Proof.Machine
end

