-- ==== Sys2Proof/Machine/Engine.lean ====
section
/-! DEFINITION. The commands NOP and START (spec/41_crc_engine.md R130, R131). The bit step that happens in the same cycle while busy is the sequencer's, under every opcode (R140): Machine/Edge.lean adds it. -/

namespace Sys2Proof.Machine

/-- NOP (R130): no command effect. -/
def execNop (s : State) : Host.Outcome State Fault Refusal := .next s

/-- START (R131). It folds no bit in its own cycle. -/
def execStart (s : State) : Host.Outcome State Fault Refusal := .next (s.acceptOrDrop s.startFold)

end Sys2Proof.Machine
end

