-- ==== Sys2Proof/Machine/FieldWrites.lean ====
section
/-! DEFINITION. The field-write commands WR_CMD, WR_ADDR, WR_DATA and WR_DEVID (spec/40_frame_builder.md R100 to R104, R106). -/

namespace Sys2Proof.Machine

/-- WR_CMD (R101). -/
def execWrCmd (imm8 : Byte) (s : State) : Host.Outcome State Fault Refusal := .next (s.acceptOrDrop (s.setCmd imm8))

/-- WR_ADDR (R102). -/
def execWrAddr (imm16 : Half) (s : State) : Host.Outcome State Fault Refusal := .next (s.acceptOrDrop (s.setAddr imm16))

/-- WR_DATA (R103). -/
def execWrData (imm16 : Half) (s : State) : Host.Outcome State Fault Refusal := .next (s.acceptOrDrop (s.setData imm16))

/-- WR_DEVID (R104). -/
def execWrDevid (imm16 : Half) (s : State) : Host.Outcome State Fault Refusal := .next (s.acceptOrDrop (s.setDevid imm16))

end Sys2Proof.Machine
end

