-- ==== Sys2Proof/Machine/Reserved.lean ====
section
/-! DEFINITION. The reserved opcodes 110 and 111 (spec/60_exceptions.md R172): ERR <- 1, whether idle or busy, and nothing else. -/

namespace Sys2Proof.Machine

/-- RESERVED_6, opcode 110 (R172). -/
def execReserved6 (s : State) : Host.Outcome State Fault Refusal := .next s.setErr

/-- RESERVED_7, opcode 111 (R172). -/
def execReserved7 (s : State) : Host.Outcome State Fault Refusal := .next s.setErr

end Sys2Proof.Machine
end

