-- ==== Sys2Proof/Machine/Dispatch.lean ====
section
/-! DEFINITION. One arm per command: part (B) of spec/41_crc_engine.md R150. -/

namespace Sys2Proof.Machine

/-- The effect of a command on the state its edge sees, without the sequencer's bit step (R150 part (B)). -/
def exec (i : Instr) (s : State) : Host.Outcome State Fault Refusal :=
  match i with
  | .nop => Sys2Proof.Machine.execNop s
  | .wrCmd imm8 => Sys2Proof.Machine.execWrCmd imm8 s
  | .wrAddr imm16 => Sys2Proof.Machine.execWrAddr imm16 s
  | .wrData imm16 => Sys2Proof.Machine.execWrData imm16 s
  | .wrDevid imm16 => Sys2Proof.Machine.execWrDevid imm16 s
  | .start => Sys2Proof.Machine.execStart s
  | .reserved6 => Sys2Proof.Machine.execReserved6 s
  | .reserved7 => Sys2Proof.Machine.execReserved7 s

end Sys2Proof.Machine
end

