-- ==== Sys2Proof/Machine/Edge.lean ====
section
/-! DEFINITION. One rising edge of `clk` (spec/41_crc_engine.md R150): reset, or the command and the sequencer's bit step together. -/

namespace Sys2Proof.Machine

/-- What an edge with `rst = 0` leaves after the command's outcome: the sequencer's bit step besides, if the pre-state was busy
(R140, R150). -/
def finishEdge (busy : Bool) : Host.Outcome State Fault Refusal → Host.Outcome State Fault Refusal
  | .next n => .next (State.sequencer busy n)
  | .fault f => .fault f
  | .refused r => .refused r

/-- The state after a rising edge that samples `p` in state `s` (R150). Reset overrides the command and the bit step (R173). -/
def edge (p : PortInput) (s : State) : Host.Outcome State Fault Refusal :=
  if p.rst then .next s.resetRegs else finishEdge s.busy (exec (decode p.word) s)

/-- The state whose next edge samples p, in place of the input that stood first. -/
def State.presentNext (s : State) (p : PortInput) : State := { s with inputs := p :: s.inputs.tail }

end Sys2Proof.Machine
end

