-- ==== Sys2Proof/Machine/Step.lean ====
section
/-! DEFINITION. One step of the machine: one rising edge of `clk` (spec/00_scope.md R9). The block fetches nothing (R35): a step samples the input ports. -/

namespace Sys2Proof.Machine

/-- One rising edge, sampling the next input the host presents (R9, R150). DESIGN CHOICE, log entry 12: before the first reset edge,
of which R191 says nothing, an edge with `rst = 0` takes the same step. -/
def step (s : State) : Host.Outcome State Fault Refusal := edge s.port s.consume

/-- `s` with the command word w, its bits above `nbits` zero, as the next input the host presents (`rst = 0`), so that the next
step samples and runs exactly it. Log entry 2. -/
def State.withFetchWord (s : State) (nbits w : Nat) : State :=
  s.presentNext (PortInput.ofWord (BitVec.ofNat 19 (w % 2 ^ nbits)))

end Sys2Proof.Machine
end

