-- ==== Sys2Proof/Machine/Assembler.lean ====
section
/-! DEFINITION. The command-sequence language (spec/30_encoding.md R77, R78): what each line puts on the input ports, and the reading of a program's text. -/

namespace Sys2Proof.Machine

/-- Why the assembler refuses a program. A refused program has no meaning (decision D21), so each is safe. -/
inductive AsmRefusal where
  /-- An operand above its field's width, or a `.word` of more than 19 bits (R77). -/
  | operandTooWide
  /-- A number that is neither decimal nor hexadecimal with a `0x` prefix (R77). -/
  | badNumber
  /-- A line that is none of the forms of R77 and R78. -/
  | badLine
  deriving DecidableEq, Repr

/-- The inputs that present an instruction, with 0 in every `wdata` bit it ignores (R77). -/
def present (i : Instr) : PortInput := PortInput.ofWord (encode i)

/-- `WAIT n`: n copies of NOP (R78). -/
def waitInputs (n : Nat) : List PortInput := List.replicate n (present .nop)

/-- The inputs a line stands for, one per rising edge (R77, R78). -/
def AsmLine.inputs : AsmLine → List PortInput
  | .nop => [present .nop]
  | .wrCmd n => [present (.wrCmd (BitVec.ofNat 8 n))]
  | .wrAddr n => [present (.wrAddr (BitVec.ofNat 16 n))]
  | .wrData n => [present (.wrData (BitVec.ofNat 16 n))]
  | .wrDevid n => [present (.wrDevid (BitVec.ofNat 16 n))]
  | .start => [present .start]
  | .word n => [PortInput.ofWord (BitVec.ofNat 19 n)]
  | .wait n => waitInputs n
  | .reset => [PortInput.resetCycle]
  | .compute c a d v =>
    [present (.wrCmd (BitVec.ofNat 8 c)), present (.wrAddr (BitVec.ofNat 16 a)), present (.wrData (BitVec.ofNat 16 d)),
      present (.wrDevid (BitVec.ofNat 16 v)), present .start] ++ waitInputs (frameLen * bitsPerByte)

/-- Assemble one line: an operand outside its field's width is refused (R77). -/
def assembleLine (l : AsmLine) : Except AsmRefusal (List PortInput) :=
  if l.wellFormed then .ok (AsmLine.inputs l) else .error .operandTooWide

/-- Assemble a program, line after line. -/
def assembleLines : List AsmLine → Except AsmRefusal (List PortInput)
  | [] => .ok []
  | l :: ls =>
    match assembleLine l, assembleLines ls with
    | .ok p, .ok ps => .ok (p ++ ps)
    | .error e, _ => .error e
    | .ok _, .error e => .error e

/-! Reading text (R77: "one command per line, in the form `MNEMONIC [operand]`"). What R77 leaves open is log entry 7. -/

/-- The value of a digit below `base`, if it is one; hexadecimal digits in either case. -/
def digitValue (base : Nat) (c : Char) : Option Nat :=
  let n := c.toNat
  let d := if 48 ≤ n ∧ n ≤ 57 then n - 48 else if 65 ≤ n ∧ n ≤ 70 then n - 55 else if 97 ≤ n ∧ n ≤ 102 then n - 87 else base
  if d < base then some d else none

/-- A run of digits, read on from the value `acc`. -/
def digitsFrom (base acc : Nat) : List Char → Option Nat
  | [] => some acc
  | c :: cs =>
    match digitValue base c with
    | some d => digitsFrom base (acc * base + d) cs
    | none => none

/-- A number: hexadecimal with a `0x` prefix, or decimal (R77). -/
def readNumber : List Char → Option Nat
  | [] => none
  | ['0', 'x'] => none
  | '0' :: 'x' :: cs => digitsFrom 16 0 cs
  | c :: cs => digitsFrom 10 0 (c :: cs)

/-- The word read so far (held in reverse) as a token, unless it is empty. -/
def flushToken : List Char → List (List Char)
  | [] => []
  | c :: cs => [(c :: cs).reverse]

/-- The tokens of a line: words between blanks; a comma is a token of its own. `cur` is the word read so far, reversed. -/
def tokensFrom (cur : List Char) : List Char → List (List Char)
  | [] => flushToken cur
  | c :: cs =>
    if c = ' ' ∨ c = '\t' ∨ c = '\r' then flushToken cur ++ tokensFrom [] cs
    else if c = ',' then flushToken cur ++ [[',']] ++ tokensFrom [] cs
    else tokensFrom (c :: cur) cs

/-- A line less its comment: "A `;` begins a comment that runs to the end of the line" (R77). -/
def uncommented (line : List Char) : List Char := line.takeWhile (fun c => c ≠ ';')

/-- A mnemonic without an operand (R77, R78). -/
def readBare (m : List Char) : Except AsmRefusal AsmLine :=
  if m = ['N', 'O', 'P'] then .ok .nop
  else if m = ['S', 'T', 'A', 'R', 'T'] then .ok .start
  else if m = ['R', 'E', 'S', 'E', 'T'] then .ok .reset
  else .error .badLine

/-- A mnemonic with one operand (R77, R78). -/
def readUnary (m x : List Char) : Except AsmRefusal AsmLine :=
  match readNumber x with
  | none => .error .badNumber
  | some n =>
    if m = ['W', 'R', '_', 'C', 'M', 'D'] then .ok (.wrCmd n)
    else if m = ['W', 'R', '_', 'A', 'D', 'D', 'R'] then .ok (.wrAddr n)
    else if m = ['W', 'R', '_', 'D', 'A', 'T', 'A'] then .ok (.wrData n)
    else if m = ['W', 'R', '_', 'D', 'E', 'V', 'I', 'D'] then .ok (.wrDevid n)
    else if m = ['.', 'w', 'o', 'r', 'd'] then .ok (.word n)
    else if m = ['W', 'A', 'I', 'T'] then .ok (.wait n)
    else .error .badLine

/-- `COMPUTE c, a, d, v` (R78). -/
def readCompute (m c a d v : List Char) : Except AsmRefusal AsmLine :=
  if m = ['C', 'O', 'M', 'P', 'U', 'T', 'E'] then
    match readNumber c, readNumber a, readNumber d, readNumber v with
    | some c, some a, some d, some v => .ok (.compute c a d v)
    | _, _, _, _ => .error .badNumber
  else .error .badLine

/-- The command a line's tokens spell; a blank line spells none. -/
def readTokens : List (List Char) → Except AsmRefusal (List AsmLine)
  | [] => .ok []
  | [m] => (readBare m).map fun l => [l]
  | [m, x] => (readUnary m x).map fun l => [l]
  | [m, c, [','], a, [','], d, [','], v] => (readCompute m c a d v).map fun l => [l]
  | _ => .error .badLine

/-- Read one line of text (R77). -/
def readLine (line : List Char) : Except AsmRefusal (List AsmLine) := readTokens (tokensFrom [] (uncommented line))

/-- Split a text at its line ends; `cur` is the line read so far, reversed. -/
def linesFrom (cur : List Char) : List Char → List (List Char)
  | [] => [cur.reverse]
  | c :: cs => if c = '\n' then cur.reverse :: linesFrom [] cs else linesFrom (c :: cur) cs

/-- Read lines of text one after another. -/
def readLines : List (List Char) → Except AsmRefusal (List AsmLine)
  | [] => .ok []
  | l :: ls =>
    match readLine l, readLines ls with
    | .ok x, .ok xs => .ok (x ++ xs)
    | .error e, _ => .error e
    | .ok _, .error e => .error e

/-- Assemble a program's text into the inputs it presents, one per rising edge (R77, R78). -/
def assembleText (text : List Char) : Except AsmRefusal (List PortInput) :=
  match readLines (linesFrom [] text) with
  | .ok ls => assembleLines ls
  | .error e => .error e

end Sys2Proof.Machine
end

