-- ==== Sys2Proof/Machine/System.lean ====
section
/-! DEFINITION. Several instances of the block (spec/60_exceptions.md R179): each has its own registers and its own inputs, and none reads or writes another's. -/

namespace Sys2Proof.Machine

/-- The instances of a system, numbered from 0. -/
structure System where
  instances : List State
  deriving DecidableEq, Repr

/-- A system has INSTANCE_COUNT instances (R6, R179). -/
def System.sized (y : System) : Prop := y.instances.length = Config.instanceCount

/-- A rising edge of instance k's clock: that instance steps, no other does. A number that is no instance has no edge. Instances
clocked together take their edges one after another, in any order (log entry 4). -/
def System.edgeAt (k : Nat) (y : System) : Host.Outcome System Fault Refusal :=
  match y.instances[k]? with
  | none => .next y
  | some s =>
    match step s with
    | .next t => .next { y with instances := y.instances.set k t }
    | .fault f => .fault f
    | .refused r => .refused r

/-- A sequence of edges, each naming the instance it clocks. -/
def System.run : List Nat → System → Host.Outcome System Fault Refusal
  | [], y => .next y
  | k :: ks, y =>
    match System.edgeAt k y with
    | .next z => System.run ks z
    | .fault f => .fault f
    | .refused r => .refused r

end Sys2Proof.Machine
end

