-- ==== Sys2Proof/Safety.lean ====
section
/-! DEFINITION. The terms claims use: the invariants of spec/10_state.md R31, misuse (R171), the source's own algorithm as the reference, and R150's function as the spec prints it. -/

namespace Sys2Proof.Machine

/-! Invariants (R31). -/

/-- (I1) to (I3) of R31: BYTE_IDX stays below 7 while busy, the counters are 0 while idle, BUSY and DONE are never both 1. -/
def State.inv (s : State) : Prop :=
  (s.busy = true → s.byteIdx ≤ 6#3) ∧ (s.busy = false → s.byteIdx = 0#3 ∧ s.bitIdx = 0#3) ∧ ¬(s.busy = true ∧ s.done = true)

/-- `acc(n)` of R143: the source's accumulator after n iterations of its step 3b over the bytes F, in total. The whole bytes
before byte n div 8 are folded by R133; then byte n div 8 is XORed in and n mod 8 bit steps are made, if that is not 0. -/
def acc (F : List Byte) (n : Nat) : Byte :=
  if n % 8 = 0 then crc8 (F.take (n / 8)) else crc8Steps (n % 8) (crc8 (F.take (n / 8)) ^^^ F.getD (n / 8) 0#8)

/-- The iterations of step 3b done so far, `8*BYTE_IDX + BIT_IDX` (R31 (I5)). -/
def State.progress (s : State) : Nat := 8 * s.byteIdx.toNat + s.bitIdx.toNat

/-- (I5) of R31: while busy, CRC is the source's accumulator over the frame of the fields. -/
def State.folds (s : State) : Prop := s.busy = true → s.crc = acc s.frame s.progress

/-! Inputs. -/

/-- The command an edge samples (R73). -/
def PortInput.instr (p : PortInput) : Instr := decode p.word

/-- (E1) to (E3) of R171: the command is a field write or START in a busy state, or a reserved opcode. -/
def PortInput.misuses (p : PortInput) (busy : Bool) : Prop :=
  match p.instr with
  | .nop => False
  | .wrCmd _ => busy = true
  | .wrAddr _ => busy = true
  | .wrData _ => busy = true
  | .wrDevid _ => busy = true
  | .start => busy = true
  | .reserved6 => True
  | .reserved7 => True

/-- The edge resets the block (R190). -/
def PortInput.resets (p : PortInput) : Prop := p.rst = true

/-- The edge is one with `rst = 0` whose command is START and whose pre-state is idle: an accepted START (R131). -/
def State.acceptsStart (s : State) : Prop := s.port.rst = false ∧ s.busy = false ∧ s.port.instr = .start

/-- This bit step is the computation's last (R142). -/
def State.atFinalBit (s : State) : Prop := s.byteIdx = 6#3 ∧ s.bitIdx = 7#3

/-- No edge of the list resets the block. -/
def noReset (ps : List PortInput) : Prop := ∀ p ∈ ps, p.rst = false

/-- n rising edges lead from s to t. -/
def runsTo (n : Nat) (s t : State) : Prop := Host.Core.run Sys2Proof.core n s = .next t

/-! The source's algorithm on unbounded integers (R133, with the source's masks as R101, R132 and R134 quote them): the reference
for a `command` wider than 8 bits (spec/90_conflicts.md C1) and for bits above 15 of the others (C2). -/

/-- One iteration of step 3b: "test the high bit (0x80)", then `((crc << 1) XOR 0x07) & 0xFF` or `(crc << 1) & 0xFF`. -/
def srcStep (crc : Nat) : Nat :=
  if crc &&& 0x80 ≠ 0 then ((crc <<< 1) ^^^ 0x07) &&& 0xFF else (crc <<< 1) &&& 0xFF

/-- n iterations of step 3b. -/
def srcSteps : Nat → Nat → Nat
  | 0, crc => crc
  | n + 1, crc => srcSteps n (srcStep crc)

/-- The fold over bytes, from an accumulator (steps 3 and 4). -/
def srcFrom : Nat → List Nat → Nat
  | crc, [] => crc
  | crc, b :: bs => srcFrom (srcSteps 8 (crc ^^^ b)) bs

/-- The source's `compute` on unmasked integers: the `command` used as it is, the other fields split by their masks (R105). -/
def srcCompute (c a d v : Nat) : Nat :=
  srcFrom 0 [c, a &&& 0xFF, (a >>> 8) &&& 0xFF, d &&& 0xFF, (d >>> 8) &&& 0xFF, v &&& 0xFF, (v >>> 8) &&& 0xFF]

/-! R150 as printed, for comparison with the machine, which is built from shared operations. -/

/-- Part (A) of R150: reads the pre-state s, writes the next state n. -/
def printedA (s n : State) : State :=
  if s.busy = true then
    let b := s.frameByte s.byteIdx
    let t := if s.bitIdx = 0#3 then s.crc ^^^ b else s.crc
    let n := { n with crc := crc8Step t }
    if s.bitIdx = 7#3 then
      let n := { n with bitIdx := 0#3 }
      if s.byteIdx = 6#3 then { n with byteIdx := 0#3, busy := false, done := true }
      else { n with byteIdx := s.byteIdx + 1#3 }
    else { n with bitIdx := s.bitIdx + 1#3 }
  else n

/-- Part (B) of R150: reads the pre-state s, writes the next state n. -/
def printedB (op : Idx3) (wdata : Half) (s n : State) : State :=
  if op = 0b000#3 then n
  else if op = 0b001#3 then (if s.busy = false then { n with cmd := wdata.extractLsb' 0 8 } else { n with err := true })
  else if op = 0b010#3 then (if s.busy = false then { n with addr := wdata } else { n with err := true })
  else if op = 0b011#3 then (if s.busy = false then { n with data := wdata } else { n with err := true })
  else if op = 0b100#3 then (if s.busy = false then { n with devid := wdata } else { n with err := true })
  else if op = 0b101#3 then
    (if s.busy = false then
      { n with crc := 0x00#8, byteIdx := 0#3, bitIdx := 0#3, busy := true, done := false, err := false }
    else { n with err := true })
  else { n with err := true }

/-- `step(s, rst, op, wdata)` of R150; the inputs still to come are not its concern. -/
def printedStep (s : State) (p : PortInput) : State :=
  if p.rst then { State.reset with inputs := s.inputs } else printedB p.op p.wdata s (printedA s s)

end Sys2Proof.Machine
end

