-- ==== Sys2Proof/Certificates/Slice0/Obligations.lean ====
section
/-! DEFINITION. The statements for the provers. Each follows a numbered rule of spec/; where a clause rests on a choice of the model, its docstring names the log entry. -/

open Sys2Proof Sys2Proof.Machine

/-! The step. -/

/-- One step samples the first listed input and removes it; where none is listed it samples NOP with `rst = 0` (the model's
choice, log entry 1). With `rst = 0` the step is `exec` of the decoded command on the state the edge sees, and the bit step
besides if that state is busy (R150); with `rst = 1` it is RESET_STATE (R190). -/
def Obligations.StepRunsTheSampledCommand : Prop :=
  ∀ s : State,
    (s.inputs = [] → s.port = ⟨false, 0b000#3, 0#16⟩) ∧
    (∀ p ps, s.inputs = p :: ps → s.port = p) ∧
    s.consume = s.withInputs s.inputs.tail ∧
    (s.port.rst = true → step s = .next (State.reset.withInputs s.inputs.tail)) ∧
    (s.port.rst = false → ∃ n, exec (decode (commandWord s.port.op s.port.wdata)) s.consume = .next n ∧
      step s = .next (if s.busy then n.bitStep else n))

/-- R150: the machine's step is the function the spec prints; its parts (A) and (B) never write the same register, so their order
does not matter. -/
def Obligations.StepIsThePrintedFunction : Prop :=
  (∀ s : State, step s = .next (printedStep s.consume s.port)) ∧
  ∀ (op : Idx3) (wdata : Half) (s : State),
    (s.busy = true → ∃ e, printedB op wdata s s = { s with err := e }) ∧
    (s.busy = false → printedA s s = s) ∧
    (printedA s s).err = s.err ∧
    printedA s (printedB op wdata s s) = printedB op wdata s (printedA s s)

/-- R75: every command word has the effect R73 gives its `op` (as R150 part (B) prints it), in every state: it never traps,
halts or is refused. -/
def Obligations.EveryWordRunsAsItsOpcode : Prop :=
  ∀ (w : CW) (s : State), exec (decode w) s = .next (printedB (w.extractLsb' 16 3) (w.extractLsb' 0 16) s s)

/-- Presenting a word through `withFetchWord` (the model's own, log entry 2): the next step samples exactly it, with `rst = 0`,
and it decodes to what `decodeTableWord` answers; a number of more than 19 bits is no word. -/
def Obligations.PresentedWordIsSampledNext : Prop :=
  ∀ (s : State) (w : Nat), w < 2 ^ 24 →
    (w < 2 ^ 19 →
      (s.withFetchWord 24 w).port.rst = false ∧ (s.withFetchWord 24 w).port.word = BitVec.ofNat 19 w ∧
      (s.withFetchWord 24 w).consume = s.consume ∧
      decodeTableWord 24 w = some (decode (s.withFetchWord 24 w).port.word)) ∧
    (2 ^ 19 ≤ w → decodeTableWord 24 w = none)

/-! Encoding. -/

/-- Decoding the word of an instruction gives it back, with every operand at every value (R73, R77). -/
def Obligations.DecodeOfEncode : Prop := ∀ i : Instr, decode (encode i) = i

/-- Encoding a decoded word clears the bits the command ignores, which the assembler emits as 0 (R77), and no other; words that
agree in the other bits decode alike (R72, R73). -/
def Obligations.EncodeOfDecodeClearsIgnoredBits : Prop :=
  ∀ w : CW, encode (decode w) = w &&& (decode w).usedBits ∧
    ∀ w' : CW, w' &&& (decode w).usedBits = w &&& (decode w).usedBits → decode w' = decode w

/-- The match/mask form of R73: mask 0x70000, match op << 16, and nothing else of the word selects the command. -/
def Obligations.MaskAndMatchSelectTheCommand : Prop :=
  ∀ w : CW,
    (w &&& 0x70000#19 = 0x00000#19 ↔ decode w = .nop) ∧
    (w &&& 0x70000#19 = 0x10000#19 ↔ ∃ v, decode w = .wrCmd v) ∧
    (w &&& 0x70000#19 = 0x20000#19 ↔ ∃ v, decode w = .wrAddr v) ∧
    (w &&& 0x70000#19 = 0x30000#19 ↔ ∃ v, decode w = .wrData v) ∧
    (w &&& 0x70000#19 = 0x40000#19 ↔ ∃ v, decode w = .wrDevid v) ∧
    (w &&& 0x70000#19 = 0x50000#19 ↔ decode w = .start) ∧
    (w &&& 0x70000#19 = 0x60000#19 ↔ decode w = .reserved6) ∧
    (w &&& 0x70000#19 = 0x70000#19 ↔ decode w = .reserved7)

/-- Words the spec writes out decode to the commands it says (R77, the examples of R101 to R104, V-FB-1, V-CE-33). -/
def Obligations.WrittenOutWordsDecode : Prop :=
  decode 0x00000#19 = .nop ∧ decode 0x10005#19 = .wrCmd 0x05#8 ∧ decode 0x1ABCD#19 = .wrCmd 0xCD#8 ∧
  decode 0x20102#19 = .wrAddr 0x0102#16 ∧ decode 0x30001#19 = .wrData 0x0001#16 ∧ decode 0x4BEEF#19 = .wrDevid 0xBEEF#16 ∧
  decode 0x50000#19 = .start ∧ decode 0x5FFFF#19 = .start ∧ decode 0x60000#19 = .reserved6 ∧ decode 0x70000#19 = .reserved7

/-! The commands. -/

/-- R130, NOP: any `wdata` decodes to it; it has no command effect, never sets ERR; the bit step happens if busy. -/
def Obligations.NopHasNoCommandEffect : Prop :=
  ∀ (s : State) (w : Half) (ps : List PortInput),
    decode (w.setWidth 19) = .nop ∧
    exec .nop s = .next s ∧
    (s.busy = false → step (s.withInputs (⟨false, 0b000#3, w⟩ :: ps)) = .next (s.withInputs ps)) ∧
    (s.busy = true → step (s.withInputs (⟨false, 0b000#3, w⟩ :: ps)) = .next (s.bitStep.withInputs ps) ∧
      s.bitStep.err = s.err)

/-- R101, WR_CMD: the operand is `wdata[7:0]`; accepted while idle, dropped with ERR <- 1 while busy, at the final bit step too;
and the source's result for a `command` wider than 8 bits is that of its low byte. -/
def Obligations.WrCmdWritesTheCommandField : Prop :=
  (∀ (s : State) (w : Half) (ps : List PortInput),
    decode (0x10000#19 ||| w.setWidth 19) = .wrCmd (w.setWidth 8) ∧
    (∀ v, s.busy = false → exec (.wrCmd v) s = .next { s with cmd := v }) ∧
    (∀ v, s.busy = true → exec (.wrCmd v) s = .next { s with err := true }) ∧
    (∀ v, { s with cmd := v }.byteIdx = 0#3 → { s with cmd := v }.fbyte = v) ∧
    (s.busy = false → exec (.wrCmd s.cmd) s = .next s) ∧
    (s.busy = true → s.atFinalBit → ∃ t, step (s.withInputs (⟨false, 0b001#3, w⟩ :: ps)) = .next t ∧
      t.cmd = s.cmd ∧ t.err = true ∧ t.busy = false ∧ t.done = true)) ∧
  ∀ c a d v : Nat, srcCompute c a d v = srcCompute (c % 256) a d v

/-- R102, WR_ADDR: the operand is all of `wdata`; accepted while idle, dropped with ERR <- 1 while busy; frame bytes 1 and 2. -/
def Obligations.WrAddrWritesTheAddressField : Prop :=
  ∀ (s : State) (w : Half),
    decode (0x20000#19 ||| w.setWidth 19) = .wrAddr w ∧
    (s.busy = false → exec (.wrAddr w) s = .next { s with addr := w }) ∧
    (s.busy = true → exec (.wrAddr w) s = .next { s with err := true }) ∧
    { s with addr := w }.frameByte 1#3 = w.setWidth 8 ∧ { s with addr := w }.frameByte 2#3 = (w >>> 8).setWidth 8

/-- R103, WR_DATA: the operand is all of `wdata`; accepted while idle, dropped with ERR <- 1 while busy; frame bytes 3 and 4. -/
def Obligations.WrDataWritesTheDataField : Prop :=
  ∀ (s : State) (w : Half),
    decode (0x30000#19 ||| w.setWidth 19) = .wrData w ∧
    (s.busy = false → exec (.wrData w) s = .next { s with data := w }) ∧
    (s.busy = true → exec (.wrData w) s = .next { s with err := true }) ∧
    { s with data := w }.frameByte 3#3 = w.setWidth 8 ∧ { s with data := w }.frameByte 4#3 = (w >>> 8).setWidth 8

/-- R104, WR_DEVID: the operand is all of `wdata`; accepted while idle, dropped with ERR <- 1 while busy; frame bytes 5 and 6. -/
def Obligations.WrDevidWritesTheDeviceIdField : Prop :=
  ∀ (s : State) (w : Half),
    decode (0x40000#19 ||| w.setWidth 19) = .wrDevid w ∧
    (s.busy = false → exec (.wrDevid w) s = .next { s with devid := w }) ∧
    (s.busy = true → exec (.wrDevid w) s = .next { s with err := true }) ∧
    { s with devid := w }.frameByte 5#3 = w.setWidth 8 ∧ { s with devid := w }.frameByte 6#3 = (w >>> 8).setWidth 8

/-- R131, START: its six writes while idle, ERR <- 1 and nothing else while busy; no bit is folded in its own cycle; dropped at the
final bit step, where the computation completes; 56 NOP edges after an accepted START the spec's example has CRC = 0xEE, and
zero fields CRC = 0x00. -/
def Obligations.StartBeginsAComputation : Prop :=
  (∀ (s : State) (w : Half) (ps : List PortInput),
    decode (0x50000#19 ||| w.setWidth 19) = .start ∧
    (s.busy = false → exec .start s =
      .next { s with crc := 0x00#8, byteIdx := 0#3, bitIdx := 0#3, busy := true, done := false, err := false }) ∧
    (s.busy = true → exec .start s = .next { s with err := true }) ∧
    (s.busy = false → ∃ t, step (s.withInputs (⟨false, 0b101#3, w⟩ :: ps)) = .next t ∧
      t.crcOut = 0x00#8 ∧ t.status = 0x0001#16 ∧ t.inputs = ps) ∧
    (s.busy = true → s.atFinalBit → ∃ n, step (s.withInputs (⟨false, 0b000#3, w⟩ :: ps)) = .next n ∧
      n.busy = false ∧ n.done = true ∧
      step (s.withInputs (⟨false, 0b101#3, w⟩ :: ps)) = .next { n with err := true })) ∧
  ∀ (s : State) (w : Half), s.busy = false →
    s.inputs = ⟨false, 0b101#3, w⟩ :: List.replicate 56 ⟨false, 0b000#3, 0#16⟩ →
    (s.cmd = 0x05#8 → s.addr = 0x0002#16 → s.data = 0x0001#16 → s.devid = 0x0000#16 →
      ∃ t, runsTo 57 s t ∧ t.done = true ∧ t.crc = 0xEE#8) ∧
    (s.cmd = 0x00#8 → s.addr = 0x0000#16 → s.data = 0x0000#16 → s.devid = 0x0000#16 →
      ∃ t, runsTo 57 s t ∧ t.done = true ∧ t.crc = 0x00#8)

/-- R172, the reserved opcodes: ERR <- 1 and nothing else, idle or busy; the edge is that of NOP but for ERR; ERR then stays set
until an accepted START (or a reset). -/
def Obligations.ReservedOpcodesSetOnlyErr : Prop :=
  (∀ (s : State) (w : Half) (ps : List PortInput),
    decode (0x60000#19 ||| w.setWidth 19) = .reserved6 ∧ decode (0x70000#19 ||| w.setWidth 19) = .reserved7 ∧
    exec .reserved6 s = .next { s with err := true } ∧ exec .reserved7 s = .next { s with err := true } ∧
    (∃ n, step (s.withInputs (⟨false, 0b000#3, w⟩ :: ps)) = .next n ∧
      step (s.withInputs (⟨false, 0b110#3, w⟩ :: ps)) = .next { n with err := true } ∧
      step (s.withInputs (⟨false, 0b111#3, w⟩ :: ps)) = .next { n with err := true }) ∧
    (s.busy = false → s.done = false → s.byteIdx = 0#3 → s.bitIdx = 0#3 → { s with err := true }.status = 0x0004#16)) ∧
  ∀ (s : State) (ps : List PortInput), s.err = true → s.inputs = ps → noReset ps → (∀ p ∈ ps, p.instr ≠ .start) →
    ∃ t, runsTo ps.length s t ∧ t.err = true

/-- R100: while idle a field write changes exactly one field register, to its operand, and no other register; while busy it is
dropped. -/
def Obligations.FieldWriteChangesExactlyOneField : Prop :=
  ∀ (s : State) (i : Instr) (c : Byte) (h : Half),
    (i = .wrCmd c ∨ i = .wrAddr h ∨ i = .wrData h ∨ i = .wrDevid h) →
    (s.busy = false → ∃ t, exec i s = .next t ∧
      t.cmd = (if i = .wrCmd c then c else s.cmd) ∧ t.addr = (if i = .wrAddr h then h else s.addr) ∧
      t.data = (if i = .wrData h then h else s.data) ∧ t.devid = (if i = .wrDevid h then h else s.devid) ∧
      t.crc = s.crc ∧ t.busy = s.busy ∧ t.done = s.done ∧ t.err = s.err ∧ t.byteIdx = s.byteIdx ∧ t.bitIdx = s.bitIdx ∧
      t.inputs = s.inputs) ∧
    (s.busy = true → exec i s = .next { s with err := true })

/-- Two identical accepted field writes in a row leave the same state as one (R57). -/
def Obligations.FieldWritesAreIdempotent : Prop :=
  ∀ (s : State) (i : Instr) (c : Byte) (h : Half),
    (i = .wrCmd c ∨ i = .wrAddr h ∨ i = .wrData h ∨ i = .wrDevid h) → s.busy = false →
    ∃ t, exec i s = .next t ∧ t.busy = false ∧ exec i t = .next t

/-! What changes a register: rules over every command and every state. -/

/-- R171 and R28: ERR is set exactly by (E1) to (E3), cleared exactly by an accepted START and by reset; a dropped or reserved
command leaves the state NOP would leave, but for ERR. -/
def Obligations.ErrIsSetExactlyByMisuse : Prop :=
  ∀ s : State, State.reset.err = false ∧ s.status.getLsbD 2 = s.err ∧ ∃ t, step s = .next t ∧
    (s.port.rst = true → t.err = false) ∧
    (s.port.rst = false →
      (t.err = true ↔ s.port.misuses s.busy ∨ (s.err = true ∧ ¬ s.acceptsStart)) ∧
      (s.port.misuses s.busy → ∃ n, step (s.withInputs (⟨false, 0b000#3, 0#16⟩ :: s.inputs.tail)) = .next n ∧
        t = { n with err := true }))

/-- R26 and R27: BUSY is set by an accepted START and cleared by the final bit step; DONE is set by the final bit step and cleared
by an accepted START; reset clears both; they read as STATUS bits 0 and 1. -/
def Obligations.BusyAndDoneFollowStartAndCompletion : Prop :=
  ∀ s : State, State.reset.busy = false ∧ State.reset.done = false ∧
    s.status.getLsbD 0 = s.busy ∧ s.status.getLsbD 1 = s.done ∧ ∃ t, step s = .next t ∧
    (s.port.rst = true → t.busy = false ∧ t.done = false) ∧
    (s.port.rst = false →
      (t.busy = true ↔ s.acceptsStart ∨ (s.busy = true ∧ ¬ s.atFinalBit)) ∧
      (t.done = true ↔ (s.busy = true ∧ s.atFinalBit) ∨ (s.done = true ∧ ¬ s.acceptsStart)))

/-- R25: three things write CRC, an accepted START, a bit step and reset; otherwise it keeps its value, and it always reads at
`crc_out`. -/
def Obligations.CrcHasThreeWriters : Prop :=
  ∀ s : State, s.crcOut = s.crc ∧ ∃ t, step s = .next t ∧
    (s.port.rst = true → t.crc = 0x00#8) ∧
    (s.acceptsStart → t.crc = 0x00#8) ∧
    (s.port.rst = false → s.busy = true →
      t.crc = crc8Step (if s.bitIdx = 0#3 then s.crc ^^^ s.frameByte s.byteIdx else s.crc)) ∧
    (s.port.rst = false → s.busy = false → ¬ s.acceptsStart → t.crc = s.crc)

/-- R30: BIT_IDX is set to 0 by an accepted START and by reset, incremented modulo 8 by each bit step, otherwise kept; it reads as
STATUS bits 6:4. -/
def Obligations.BitIndexCountsBitSteps : Prop :=
  ∀ s : State, State.reset.bitIdx = 0#3 ∧ s.status.extractLsb' 4 3 = s.bitIdx ∧ ∃ t, step s = .next t ∧
    (s.port.rst = true → t.bitIdx = 0#3) ∧
    (s.acceptsStart → t.bitIdx = 0#3) ∧
    (s.port.rst = false → s.busy = true → t.bitIdx.toNat = (s.bitIdx.toNat + 1) % 8) ∧
    (s.port.rst = false → s.busy = false → ¬ s.acceptsStart → t.bitIdx = s.bitIdx)

/-- R142 and the frame of the bit step (R140, R31 (I4)): whatever the command, a bit step advances the counters as printed, the
final one completes the computation, and no field register changes. -/
def Obligations.BitStepAdvancesAndCompletes : Prop :=
  ∀ s : State, s.busy = true → s.port.rst = false → ∃ t, step s = .next t ∧
    t.cmd = s.cmd ∧ t.addr = s.addr ∧ t.data = s.data ∧ t.devid = s.devid ∧
    (s.bitIdx ≠ 7#3 → t.bitIdx = s.bitIdx + 1#3 ∧ t.byteIdx = s.byteIdx ∧ t.busy = true ∧ t.done = s.done) ∧
    (s.bitIdx = 7#3 → s.byteIdx ≠ 6#3 → t.bitIdx = 0#3 ∧ t.byteIdx = s.byteIdx + 1#3 ∧ t.busy = true ∧ t.done = s.done) ∧
    (s.bitIdx = 7#3 → s.byteIdx = 6#3 → t.bitIdx = 0#3 ∧ t.byteIdx = 0#3 ∧ t.busy = false ∧ t.done = true)

/-- R107: a field register changes only by its own accepted write or by reset; a computation leaves it. -/
def Obligations.FieldsChangeOnlyByAcceptedWriteOrReset : Prop :=
  ∀ s : State, ∃ t, step s = .next t ∧
    (s.port.rst = true → t.cmd = 0x00#8 ∧ t.addr = 0x0000#16 ∧ t.data = 0x0000#16 ∧ t.devid = 0x0000#16) ∧
    (s.port.rst = false → s.busy = false →
      (∀ v, s.port.instr = .wrCmd v → t.cmd = v) ∧ (∀ v, s.port.instr = .wrAddr v → t.addr = v) ∧
      (∀ v, s.port.instr = .wrData v → t.data = v) ∧ (∀ v, s.port.instr = .wrDevid v → t.devid = v)) ∧
    (s.port.rst = false → (s.busy = true ∨ ∀ v, s.port.instr ≠ .wrCmd v) → t.cmd = s.cmd) ∧
    (s.port.rst = false → (s.busy = true ∨ ∀ v, s.port.instr ≠ .wrAddr v) → t.addr = s.addr) ∧
    (s.port.rst = false → (s.busy = true ∨ ∀ v, s.port.instr ≠ .wrData v) → t.data = s.data) ∧
    (s.port.rst = false → (s.busy = true ∨ ∀ v, s.port.instr ≠ .wrDevid v) → t.devid = s.devid)

/-! Reset. -/

/-- R190: an edge with `rst = 1` leaves RESET_STATE whatever the state (the unknown power-up state of R191 too), `op` and `wdata`;
its outputs are all 0. -/
def Obligations.ResetLoadsResetState : Prop :=
  (∀ (s : State) (op : Idx3) (wdata : Half) (ps : List PortInput),
    ∃ t, step (s.withInputs (⟨true, op, wdata⟩ :: ps)) = .next t ∧
      t.cmd = 0x00#8 ∧ t.addr = 0x0000#16 ∧ t.data = 0x0000#16 ∧ t.devid = 0x0000#16 ∧ t.crc = 0x00#8 ∧
      t.busy = false ∧ t.done = false ∧ t.err = false ∧ t.byteIdx = 0#3 ∧ t.bitIdx = 0#3 ∧ t.inputs = ps ∧
      t.crcOut = 0x00#8 ∧ t.status = 0x0000#16 ∧ t.fbyte = 0x00#8) ∧
  ∀ (op : Idx3) (wdata : Half) (ps : List PortInput),
    step (State.powerUp (⟨true, op, wdata⟩ :: ps)) = .next (State.reset.withInputs ps)

/-! Invariants. -/

/-- The reset state meets (I1) to (I3) and (I5) of R31. -/
def Obligations.ResetMeetsTheInvariants : Prop := State.reset.inv ∧ State.reset.folds

/-- Every step from a state that meets (I1) to (I3) of R31 leads to one that does. -/
def Obligations.StepKeepsTheSequencerInvariant : Prop := ∀ s : State, s.inv → ∃ t, step s = .next t ∧ t.inv

/-- Every step keeps (I5) of R31, given (I1) to (I3): while busy, CRC is the source's accumulator after 8*BYTE_IDX + BIT_IDX
iterations over the frame. -/
def Obligations.StepKeepsTheFoldInvariant : Prop := ∀ s : State, s.inv → s.folds → ∃ t, step s = .next t ∧ t.inv ∧ t.folds

/-- R31: every state reached from RESET_STATE, whatever the host presents, satisfies (I1) to (I5). (I4) is said of the state u at
which the START that set BUSY was accepted. -/
def Obligations.ReachableStatesMeetTheInvariants : Prop :=
  ∀ (ps : List PortInput) (n : Nat), ∃ t, runsTo n (State.reset.withInputs ps) t ∧ t.inv ∧ t.folds ∧
    ∀ (m : Nat) (u : State), m < n → runsTo m (State.reset.withInputs ps) u → u.acceptsStart →
      (∀ (k : Nat) (v : State), m < k → k ≤ n → runsTo k (State.reset.withInputs ps) v → v.busy = true) →
      t.cmd = u.cmd ∧ t.addr = u.addr ∧ t.data = u.data ∧ t.devid = u.devid

/-! Outputs and the frame. -/

/-- R32: the layout of STATUS, its reserved bits 0, and its value after reset. -/
def Obligations.StatusWordLayout : Prop :=
  State.reset.status = 0x0000#16 ∧ ∀ s : State,
    s.status.getLsbD 0 = s.busy ∧ s.status.getLsbD 1 = s.done ∧ s.status.getLsbD 2 = s.err ∧
    s.status.getLsbD 3 = false ∧ s.status.extractLsb' 4 3 = s.bitIdx ∧ s.status.getLsbD 7 = false ∧
    s.status.extractLsb' 8 3 = s.byteIdx ∧ s.status.extractLsb' 11 5 = 0#5

/-- R34: `fbyte` is FRAME at BYTE_IDX; while idle (in a state that meets R31) it is CMD. -/
def Obligations.FbyteShowsTheSelectedByte : Prop :=
  ∀ s : State, s.fbyte = s.frameByte s.byteIdx ∧ (s.inv → s.busy = false → s.fbyte = s.cmd)

/-- R105: the eight values of FRAME, and the frame as the seven-byte sequence. -/
def Obligations.FrameMultiplexerTable : Prop :=
  ∀ s : State,
    s.frameByte 0#3 = s.cmd ∧
    s.frameByte 1#3 = s.addr.setWidth 8 ∧ s.frameByte 2#3 = (s.addr >>> 8).setWidth 8 ∧
    s.frameByte 3#3 = s.data.setWidth 8 ∧ s.frameByte 4#3 = (s.data >>> 8).setWidth 8 ∧
    s.frameByte 5#3 = s.devid.setWidth 8 ∧ s.frameByte 6#3 = (s.devid >>> 8).setWidth 8 ∧
    s.frameByte 7#3 = 0x00#8 ∧
    s.frame = (List.range 7).map (fun i => s.frameByte (BitVec.ofNat 3 i)) ∧ s.frame.length = 7

/-- R108 (b) and (c): swapping the bytes of a 16-bit field swaps its two frame bytes and changes no other; the frame determines
the four fields. ((a) is the type of a byte.) -/
def Obligations.FrameSwapsAndIsInjective : Prop :=
  (∀ (s : State) (i : Idx3),
    { s with addr := s.addr.rotateLeft 8 }.frameByte i =
      s.frameByte (if i = 1#3 then 2#3 else if i = 2#3 then 1#3 else i) ∧
    { s with data := s.data.rotateLeft 8 }.frameByte i =
      s.frameByte (if i = 3#3 then 4#3 else if i = 4#3 then 3#3 else i) ∧
    { s with devid := s.devid.rotateLeft 8 }.frameByte i =
      s.frameByte (if i = 5#3 then 6#3 else if i = 6#3 then 5#3 else i)) ∧
  ∀ s t : State, s.frame = t.frame → s.cmd = t.cmd ∧ s.addr = t.addr ∧ s.data = t.data ∧ s.devid = t.devid

/-! The CRC. -/

/-- R132: CRC8_STEP as the spec prints it; the bit shifted out is bit 0 of the result; the function is bijective. -/
def Obligations.BitStepFunctionIsBijective : Prop :=
  (∀ t : Byte, crc8Step t =
      (if t.getLsbD 7 = true then (t.extractLsb' 0 7 ++ 0#1) ^^^ 0x07#8 else (t.extractLsb' 0 7 ++ 0#1)) ∧
    (crc8Step t).getLsbD 0 = t.getLsbD 7) ∧
  Function.Bijective crc8Step

/-- R133: the fold, byte by byte from the last: XOR the byte in and make eight bit steps; the empty sequence gives 0x00. -/
def Obligations.CrcIsTheSourceFold : Prop :=
  crc8 [] = 0x00#8 ∧ ∀ (bs : List Byte) (b : Byte), crc8 (bs ++ [b]) = crc8Step^[8] (crc8 bs ^^^ b)

/-- The source's algorithm on unmasked integers has the value of the 8-bit and 16-bit `compute` (R134; spec/90_conflicts.md C1 for
a wider `command`, C2 for bits above 15). -/
def Obligations.ComputeAgreesWithTheUnmaskedSource : Prop :=
  ∀ c a d v : Nat,
    (compute (BitVec.ofNat 8 c) (BitVec.ofNat 16 a) (BitVec.ofNat 16 d) (BitVec.ofNat 16 v)).toNat = srcCompute c a d v

/-- R145 (a): zero bytes fold to 0x00, any number of them. -/
def Obligations.ZeroBytesFoldToZero : Prop := ∀ n : Nat, crc8 (List.replicate n 0x00#8) = 0x00#8

/-- R145 (b): CRC8 is linear over GF(2) for sequences of equal length. -/
def Obligations.CrcIsLinear : Prop :=
  ∀ xs ys : List Byte, xs.length = ys.length → crc8 (List.zipWith (· ^^^ ·) xs ys) = crc8 xs ^^^ crc8 ys

/-- R145 (c): for one byte the CRC is eight bit steps of it, a bijection. -/
def Obligations.OneByteCrcIsBijective : Prop :=
  (∀ b : Byte, crc8 [b] = crc8Step^[8] b) ∧ Function.Bijective (fun b : Byte => crc8 [b])

/-- R145 (d): sequences that differ in exactly one bit have different CRCs. -/
def Obligations.OneBitErrorsAreDetected : Prop :=
  ∀ (bs : List Byte) (i k : Nat) (h : i < bs.length), k < 8 → crc8 (bs.set i (bs[i] ^^^ (1#8 <<< k))) ≠ crc8 bs

/-! Whole computations. -/

/-- R143: n edges after an accepted START, for n from 0 to 55, CRC is the source's accumulator after n iterations over the frame at
START, the counters are n div 8 and n mod 8, BUSY = 1 and DONE = 0, whatever commands came between. -/
def Obligations.RunningCrcFollowsTheSource : Prop :=
  ∀ (s : State) (p : PortInput) (ps rest : List PortInput),
    s.inputs = p :: ps ++ rest → p.rst = false → p.instr = .start → s.busy = false → noReset ps → ps.length ≤ 55 →
    ∃ t, runsTo (ps.length + 1) s t ∧ t.crc = acc s.frame ps.length ∧
      t.byteIdx.toNat = ps.length / 8 ∧ t.bitIdx.toNat = ps.length % 8 ∧ t.busy = true ∧ t.done = false ∧ t.inputs = rest

/-- R144: 56 edges without reset after an accepted START, whatever the commands, BUSY = 0, DONE = 1, both counters are 0 and CRC is
`compute` of the fields at START; ERR = 1 exactly if one of the 56 commands was not NOP. The field registers are as at START. CRC
and DONE then hold at every further edge that neither resets nor presents START. -/
def Obligations.ComputationGivesTheCrc : Prop :=
  ∀ (s : State) (p : PortInput) (ps rest : List PortInput),
    s.inputs = p :: ps ++ rest → p.rst = false → p.instr = .start → s.busy = false → noReset ps → ps.length = 56 →
    ∃ t, runsTo 57 s t ∧ t.busy = false ∧ t.done = true ∧ t.byteIdx = 0#3 ∧ t.bitIdx = 0#3 ∧
      t.crc = crc8 s.frame ∧ t.crc = compute s.cmd s.addr s.data s.devid ∧
      (t.err = true ↔ ∃ q ∈ ps, q.instr ≠ .nop) ∧
      t.cmd = s.cmd ∧ t.addr = s.addr ∧ t.data = s.data ∧ t.devid = s.devid ∧ t.inputs = rest ∧
      ∀ qs rest' : List PortInput, rest = qs ++ rest' → noReset qs → (∀ q ∈ qs, q.instr ≠ .start) →
        ∃ u, runsTo (57 + qs.length) s u ∧ u.crc = t.crc ∧ u.done = true

/-- R195: after a START accepted at e0 the block is still busy at every edge up to e0+56, the final one included, so a command
there is dropped and sets ERR if it is not NOP; at e0+57 a START is accepted. -/
def Obligations.CommandsAreDroppedUpToTheFinalEdge : Prop :=
  ∀ (s : State) (p : PortInput) (ps rest : List PortInput),
    s.inputs = p :: ps ++ rest → p.rst = false → p.instr = .start → s.busy = false → noReset ps →
    (∀ (q : PortInput) (qs : List PortInput), rest = q :: qs → q.rst = false → ps.length ≤ 55 →
      ∃ t u, runsTo (ps.length + 1) s t ∧ t.busy = true ∧ runsTo (ps.length + 2) s u ∧
        u.cmd = s.cmd ∧ u.addr = s.addr ∧ u.data = s.data ∧ u.devid = s.devid ∧ (q.instr ≠ .nop → u.err = true) ∧
        (u.busy = false ↔ ps.length = 55)) ∧
    (∀ (q : PortInput) (qs : List PortInput), rest = q :: qs → q.rst = false → q.instr = .start → ps.length = 56 →
      ∃ u, runsTo 58 s u ∧ u.busy = true ∧ u.done = false ∧ u.err = false ∧ u.crc = 0x00#8)

/-- The result stays (R60, R25, R27): while idle, edges that neither reset nor START change neither CRC, DONE nor BUSY. -/
def Obligations.ResultIsHeldUntilStartOrReset : Prop :=
  ∀ (s : State) (ps rest : List PortInput), s.inputs = ps ++ rest → s.busy = false → noReset ps →
    (∀ p ∈ ps, p.instr ≠ .start) →
    ∃ t, runsTo ps.length s t ∧ t.crc = s.crc ∧ t.done = s.done ∧ t.busy = false ∧ t.inputs = rest

/-- R192: from any state at all (R191), one reset edge (R190), the four field writes in any order, START and 56 NOPs give
`compute` of the values written, and ERR = 0, since no command was misused after START (R144). -/
def Obligations.BootSequenceComputes : Prop :=
  ∀ (s : State) (c : Byte) (a d v : Half) (op : Idx3) (wdata : Half) (ws rest : List PortInput),
    List.Perm ws [present (.wrCmd c), present (.wrAddr a), present (.wrData d), present (.wrDevid v)] →
    s.inputs = ⟨true, op, wdata⟩ :: ws ++ present .start :: List.replicate 56 (present .nop) ++ rest →
    ∃ t, runsTo 62 s t ∧ t.status.getLsbD 1 = true ∧ t.crcOut = compute c a d v ∧ t.err = false ∧ t.inputs = rest

/-! The command-sequence language. -/

/-- R77: what the six mnemonics and `.word` encode as, with 0 in every ignored bit, and the refusal of an operand above its
field's width. -/
def Obligations.AssemblerEncodesAndRefuses : Prop :=
  assembleLine .nop = .ok [PortInput.ofWord 0x00000#19] ∧ assembleLine .start = .ok [PortInput.ofWord 0x50000#19] ∧
  ∀ n : Nat,
    (n ≤ 0xFF → assembleLine (.wrCmd n) = .ok [PortInput.ofWord (0x10000#19 ||| BitVec.ofNat 19 n)]) ∧
    (n ≤ 0xFFFF → assembleLine (.wrAddr n) = .ok [PortInput.ofWord (0x20000#19 ||| BitVec.ofNat 19 n)] ∧
      assembleLine (.wrData n) = .ok [PortInput.ofWord (0x30000#19 ||| BitVec.ofNat 19 n)] ∧
      assembleLine (.wrDevid n) = .ok [PortInput.ofWord (0x40000#19 ||| BitVec.ofNat 19 n)]) ∧
    (0xFF < n → assembleLine (.wrCmd n) = .error .operandTooWide) ∧
    (0xFFFF < n → assembleLine (.wrAddr n) = .error .operandTooWide ∧
      assembleLine (.wrData n) = .error .operandTooWide ∧ assembleLine (.wrDevid n) = .error .operandTooWide) ∧
    (n < 2 ^ 19 → ∃ p, assembleLine (.word n) = .ok [p] ∧ p.rst = false ∧ p.word = BitVec.ofNat 19 n)

/-- R78: the expansions of WAIT, RESET and COMPUTE, their cycles, and what COMPUTE gives when issued while idle: DONE = 1 and
`crc_out` the source's `compute`. -/
def Obligations.PseudoInstructionsExpand : Prop :=
  (∀ n : Nat, assembleLine (.wait n) = .ok (List.replicate n (present .nop))) ∧
  assembleLine .reset = .ok [⟨true, 0b000#3, 0#16⟩] ∧
  ∀ c a d v : Nat, c ≤ 0xFF → a ≤ 0xFFFF → d ≤ 0xFFFF → v ≤ 0xFFFF →
    ∃ ps, assembleLine (.compute c a d v) = .ok ps ∧
      assembleLines [.wrCmd c, .wrAddr a, .wrData d, .wrDevid v, .start, .wait 56] = .ok ps ∧ ps.length = 61 ∧
      ∀ (s : State) (rest : List PortInput), s.busy = false → s.inputs = ps ++ rest →
        ∃ t, runsTo 61 s t ∧ t.done = true ∧ t.busy = false ∧ t.crcOut.toNat = srcCompute c a d v ∧ t.inputs = rest

/-! Several instances. -/

/-- R179: an instance is independent of the others. After any edges its state depends only on its own state before and on how
many of the edges were its own: it is where its own run of that many steps leads. No edge changes the number of instances. That
an edge is one of one named instance, and that a number which names none has no edge, is the model's choice (log entry 4). -/
def Obligations.InstancesDoNotInterfere : Prop :=
  ∀ (k : Nat) (es fs : List Nat) (y z : System), y.instances[k]? = z.instances[k]? → es.count k = fs.count k →
    ∃ y' z', System.run es y = .next y' ∧ System.run fs z = .next z' ∧ y'.instances[k]? = z'.instances[k]? ∧
      (∀ s, y.instances[k]? = some s → ∃ t, runsTo (es.count k) s t ∧ y'.instances[k]? = some t) ∧
      (y.sized → y'.sized)
end

