-- ==== Sys2Proof/Laws/Crc.lean ====
section
/-! SUPPORT. Small lemmas of the pure CRC functions. -/

namespace Sys2Proof.Machine

@[simp] theorem crc8Steps_zero (t : Byte) : crc8Steps 0 t = t := rfl

theorem crc8Steps_succ (n : Nat) (t : Byte) : crc8Steps (n + 1) t = crc8Steps n (crc8Step t) := rfl

/-- The last of n + 1 bit steps. -/
theorem crc8Steps_succ_last (n : Nat) (t : Byte) : crc8Steps (n + 1) t = crc8Step (crc8Steps n t) := by
  induction n generalizing t with
  | zero => rfl
  | succ n ih => rw [crc8Steps_succ, ih]; rfl

@[simp] theorem crc8From_nil (crc : Byte) : crc8From crc [] = crc := rfl

@[simp] theorem crc8From_cons (crc b : Byte) (bs : List Byte) : crc8From crc (b :: bs) = crc8From (crc8Byte crc b) bs := rfl

/-- The fold of a sequence goes on from the fold of its first part. -/
theorem crc8From_append (crc : Byte) (xs ys : List Byte) : crc8From crc (xs ++ ys) = crc8From (crc8From crc xs) ys := by
  induction xs generalizing crc with
  | nil => rfl
  | cons x xs ih => simpa using ih _

/-- CRC8_STEP fixes 0x00. -/
@[simp] theorem crc8Step_zero : crc8Step 0x00#8 = 0x00#8 := by decide

/-- CRC8_STEP as one shift and one conditional XOR. -/
theorem crc8Step_eq (t : Byte) : crc8Step t = (t <<< 1) ^^^ (if t.getLsbD 7 then poly else 0#8) := by
  unfold crc8Step
  split <;> simp

/-- CRC8_STEP distributes over XOR. -/
theorem crc8Step_xor (a b : Byte) : crc8Step (a ^^^ b) = crc8Step a ^^^ crc8Step b := by
  have hp : (if (a ^^^ b).getLsbD 7 then poly else 0#8) =
      (if a.getLsbD 7 then poly else 0#8) ^^^ (if b.getLsbD 7 then poly else 0#8) := by
    rw [BitVec.getLsbD_xor]
    cases a.getLsbD 7 <;> cases b.getLsbD 7 <;> simp
  rw [crc8Step_eq, crc8Step_eq a, crc8Step_eq b, hp, BitVec.shiftLeft_xor_distrib]
  ac_rfl

end Sys2Proof.Machine
end

