-- ==== Sys2Proof/Laws/Decode.lean ====
section
/-! SUPPORT. The fields of a command word, and the decoder opcode by opcode. -/

namespace Sys2Proof.Machine

/-- The bits of a command word: `wdata` below, `op` above (R70). -/
theorem getLsbD_commandWord (op : Idx3) (w : Half) (i : Nat) :
    (commandWord op w).getLsbD i = if i < 16 then w.getLsbD i else op.getLsbD (i - 16) := by
  simp only [commandWord, BitVec.getLsbD_or, BitVec.getLsbD_shiftLeft, BitVec.getLsbD_setWidth]
  by_cases h : i < 16
  · simp [h, show i < 19 by omega]
  · by_cases h' : i < 19
    · simp [h, h', BitVec.getLsbD_of_ge w i (by omega), show i - 16 < 19 by omega]
    · simp [h, h', BitVec.getLsbD_of_ge op (i - 16) (by omega)]

@[simp] theorem opOf_commandWord (op : Idx3) (w : Half) : opOf (commandWord op w) = op := by
  apply BitVec.eq_of_getLsbD_eq
  intro i hi
  simp [opOf, getLsbD_commandWord, hi]

@[simp] theorem wdataOf_commandWord (op : Idx3) (w : Half) : wdataOf (commandWord op w) = w := by
  apply BitVec.eq_of_getLsbD_eq
  intro i hi
  simp [wdataOf, getLsbD_commandWord, hi]

@[simp] theorem commandWord_fields (w : CW) : commandWord (opOf w) (wdataOf w) = w := by
  apply BitVec.eq_of_getLsbD_eq
  intro i hi
  by_cases h : i < 16
  · simp [getLsbD_commandWord, wdataOf, h]
  · simp [getLsbD_commandWord, opOf, h, show i - 16 < 3 by omega, show 16 + (i - 16) = i by omega]

/-- Decoding the word of the inputs reads the inputs. -/
@[simp] theorem decode_commandWord (op : Idx3) (w : Half) : decode (commandWord op w) = decodeFields op w := by
  simp [decode]

@[simp] theorem PortInput.word_ofWord (w : CW) : (PortInput.ofWord w).word = w := by
  simp [PortInput.word, PortInput.ofWord]

/-- A 3-bit opcode is one of the eight values of R73. -/
theorem opcode_cases (op : Idx3) : op = 0#3 ∨ op = 1#3 ∨ op = 2#3 ∨ op = 3#3 ∨ op = 4#3 ∨ op = 5#3 ∨ op = 6#3 ∨ op = 7#3 := by
  revert op; decide

@[simp] theorem decodeFields_nop (w : Half) : decodeFields 0#3 w = .nop := rfl
@[simp] theorem decodeFields_wrCmd (w : Half) : decodeFields 1#3 w = .wrCmd (imm8Of w) := rfl
@[simp] theorem decodeFields_wrAddr (w : Half) : decodeFields 2#3 w = .wrAddr w := rfl
@[simp] theorem decodeFields_wrData (w : Half) : decodeFields 3#3 w = .wrData w := rfl
@[simp] theorem decodeFields_wrDevid (w : Half) : decodeFields 4#3 w = .wrDevid w := rfl
@[simp] theorem decodeFields_start (w : Half) : decodeFields 5#3 w = .start := rfl
@[simp] theorem decodeFields_reserved6 (w : Half) : decodeFields 6#3 w = .reserved6 := rfl
@[simp] theorem decodeFields_reserved7 (w : Half) : decodeFields 7#3 w = .reserved7 := rfl

end Sys2Proof.Machine
end

