-- ==== Sys2Proof/Laws/State.lean ====
section
/-! SUPPORT. One lemma per field of State and per named update of it. -/

namespace Sys2Proof.Machine

variable (s : State)

@[simp] theorem State.setErr_cmd : s.setErr.cmd = s.cmd := rfl
@[simp] theorem State.setErr_addr : s.setErr.addr = s.addr := rfl
@[simp] theorem State.setErr_data : s.setErr.data = s.data := rfl
@[simp] theorem State.setErr_devid : s.setErr.devid = s.devid := rfl
@[simp] theorem State.setErr_crc : s.setErr.crc = s.crc := rfl
@[simp] theorem State.setErr_busy : s.setErr.busy = s.busy := rfl
@[simp] theorem State.setErr_done : s.setErr.done = s.done := rfl
@[simp] theorem State.setErr_err : s.setErr.err = true := rfl
@[simp] theorem State.setErr_byteIdx : s.setErr.byteIdx = s.byteIdx := rfl
@[simp] theorem State.setErr_bitIdx : s.setErr.bitIdx = s.bitIdx := rfl
@[simp] theorem State.setErr_inputs : s.setErr.inputs = s.inputs := rfl

@[simp] theorem State.flagsStarted_cmd : s.flagsStarted.cmd = s.cmd := rfl
@[simp] theorem State.flagsStarted_addr : s.flagsStarted.addr = s.addr := rfl
@[simp] theorem State.flagsStarted_data : s.flagsStarted.data = s.data := rfl
@[simp] theorem State.flagsStarted_devid : s.flagsStarted.devid = s.devid := rfl
@[simp] theorem State.flagsStarted_crc : s.flagsStarted.crc = s.crc := rfl
@[simp] theorem State.flagsStarted_busy : s.flagsStarted.busy = true := rfl
@[simp] theorem State.flagsStarted_done : s.flagsStarted.done = false := rfl
@[simp] theorem State.flagsStarted_err : s.flagsStarted.err = false := rfl
@[simp] theorem State.flagsStarted_byteIdx : s.flagsStarted.byteIdx = s.byteIdx := rfl
@[simp] theorem State.flagsStarted_bitIdx : s.flagsStarted.bitIdx = s.bitIdx := rfl
@[simp] theorem State.flagsStarted_inputs : s.flagsStarted.inputs = s.inputs := rfl

@[simp] theorem State.flagsCompleted_cmd : s.flagsCompleted.cmd = s.cmd := rfl
@[simp] theorem State.flagsCompleted_addr : s.flagsCompleted.addr = s.addr := rfl
@[simp] theorem State.flagsCompleted_data : s.flagsCompleted.data = s.data := rfl
@[simp] theorem State.flagsCompleted_devid : s.flagsCompleted.devid = s.devid := rfl
@[simp] theorem State.flagsCompleted_crc : s.flagsCompleted.crc = s.crc := rfl
@[simp] theorem State.flagsCompleted_busy : s.flagsCompleted.busy = false := rfl
@[simp] theorem State.flagsCompleted_done : s.flagsCompleted.done = true := rfl
@[simp] theorem State.flagsCompleted_err : s.flagsCompleted.err = s.err := rfl
@[simp] theorem State.flagsCompleted_byteIdx : s.flagsCompleted.byteIdx = s.byteIdx := rfl
@[simp] theorem State.flagsCompleted_bitIdx : s.flagsCompleted.bitIdx = s.bitIdx := rfl
@[simp] theorem State.flagsCompleted_inputs : s.flagsCompleted.inputs = s.inputs := rfl

@[simp] theorem State.setCmd_cmd (v : Byte) : (s.setCmd v).cmd = v := rfl
@[simp] theorem State.setCmd_addr (v : Byte) : (s.setCmd v).addr = s.addr := rfl
@[simp] theorem State.setCmd_data (v : Byte) : (s.setCmd v).data = s.data := rfl
@[simp] theorem State.setCmd_devid (v : Byte) : (s.setCmd v).devid = s.devid := rfl
@[simp] theorem State.setCmd_crc (v : Byte) : (s.setCmd v).crc = s.crc := rfl
@[simp] theorem State.setCmd_busy (v : Byte) : (s.setCmd v).busy = s.busy := rfl
@[simp] theorem State.setCmd_done (v : Byte) : (s.setCmd v).done = s.done := rfl
@[simp] theorem State.setCmd_err (v : Byte) : (s.setCmd v).err = s.err := rfl
@[simp] theorem State.setCmd_byteIdx (v : Byte) : (s.setCmd v).byteIdx = s.byteIdx := rfl
@[simp] theorem State.setCmd_bitIdx (v : Byte) : (s.setCmd v).bitIdx = s.bitIdx := rfl
@[simp] theorem State.setCmd_inputs (v : Byte) : (s.setCmd v).inputs = s.inputs := rfl

@[simp] theorem State.setAddr_cmd (v : Half) : (s.setAddr v).cmd = s.cmd := rfl
@[simp] theorem State.setAddr_addr (v : Half) : (s.setAddr v).addr = v := rfl
@[simp] theorem State.setAddr_data (v : Half) : (s.setAddr v).data = s.data := rfl
@[simp] theorem State.setAddr_devid (v : Half) : (s.setAddr v).devid = s.devid := rfl
@[simp] theorem State.setAddr_crc (v : Half) : (s.setAddr v).crc = s.crc := rfl
@[simp] theorem State.setAddr_busy (v : Half) : (s.setAddr v).busy = s.busy := rfl
@[simp] theorem State.setAddr_done (v : Half) : (s.setAddr v).done = s.done := rfl
@[simp] theorem State.setAddr_err (v : Half) : (s.setAddr v).err = s.err := rfl
@[simp] theorem State.setAddr_byteIdx (v : Half) : (s.setAddr v).byteIdx = s.byteIdx := rfl
@[simp] theorem State.setAddr_bitIdx (v : Half) : (s.setAddr v).bitIdx = s.bitIdx := rfl
@[simp] theorem State.setAddr_inputs (v : Half) : (s.setAddr v).inputs = s.inputs := rfl

@[simp] theorem State.setData_cmd (v : Half) : (s.setData v).cmd = s.cmd := rfl
@[simp] theorem State.setData_addr (v : Half) : (s.setData v).addr = s.addr := rfl
@[simp] theorem State.setData_data (v : Half) : (s.setData v).data = v := rfl
@[simp] theorem State.setData_devid (v : Half) : (s.setData v).devid = s.devid := rfl
@[simp] theorem State.setData_crc (v : Half) : (s.setData v).crc = s.crc := rfl
@[simp] theorem State.setData_busy (v : Half) : (s.setData v).busy = s.busy := rfl
@[simp] theorem State.setData_done (v : Half) : (s.setData v).done = s.done := rfl
@[simp] theorem State.setData_err (v : Half) : (s.setData v).err = s.err := rfl
@[simp] theorem State.setData_byteIdx (v : Half) : (s.setData v).byteIdx = s.byteIdx := rfl
@[simp] theorem State.setData_bitIdx (v : Half) : (s.setData v).bitIdx = s.bitIdx := rfl
@[simp] theorem State.setData_inputs (v : Half) : (s.setData v).inputs = s.inputs := rfl

@[simp] theorem State.setDevid_cmd (v : Half) : (s.setDevid v).cmd = s.cmd := rfl
@[simp] theorem State.setDevid_addr (v : Half) : (s.setDevid v).addr = s.addr := rfl
@[simp] theorem State.setDevid_data (v : Half) : (s.setDevid v).data = s.data := rfl
@[simp] theorem State.setDevid_devid (v : Half) : (s.setDevid v).devid = v := rfl
@[simp] theorem State.setDevid_crc (v : Half) : (s.setDevid v).crc = s.crc := rfl
@[simp] theorem State.setDevid_busy (v : Half) : (s.setDevid v).busy = s.busy := rfl
@[simp] theorem State.setDevid_done (v : Half) : (s.setDevid v).done = s.done := rfl
@[simp] theorem State.setDevid_err (v : Half) : (s.setDevid v).err = s.err := rfl
@[simp] theorem State.setDevid_byteIdx (v : Half) : (s.setDevid v).byteIdx = s.byteIdx := rfl
@[simp] theorem State.setDevid_bitIdx (v : Half) : (s.setDevid v).bitIdx = s.bitIdx := rfl
@[simp] theorem State.setDevid_inputs (v : Half) : (s.setDevid v).inputs = s.inputs := rfl

@[simp] theorem State.setCrc_cmd (v : Byte) : (s.setCrc v).cmd = s.cmd := rfl
@[simp] theorem State.setCrc_addr (v : Byte) : (s.setCrc v).addr = s.addr := rfl
@[simp] theorem State.setCrc_data (v : Byte) : (s.setCrc v).data = s.data := rfl
@[simp] theorem State.setCrc_devid (v : Byte) : (s.setCrc v).devid = s.devid := rfl
@[simp] theorem State.setCrc_crc (v : Byte) : (s.setCrc v).crc = v := rfl
@[simp] theorem State.setCrc_busy (v : Byte) : (s.setCrc v).busy = s.busy := rfl
@[simp] theorem State.setCrc_done (v : Byte) : (s.setCrc v).done = s.done := rfl
@[simp] theorem State.setCrc_err (v : Byte) : (s.setCrc v).err = s.err := rfl
@[simp] theorem State.setCrc_byteIdx (v : Byte) : (s.setCrc v).byteIdx = s.byteIdx := rfl
@[simp] theorem State.setCrc_bitIdx (v : Byte) : (s.setCrc v).bitIdx = s.bitIdx := rfl
@[simp] theorem State.setCrc_inputs (v : Byte) : (s.setCrc v).inputs = s.inputs := rfl

@[simp] theorem State.setCounters_cmd (byte bit : Idx3) : (s.setCounters byte bit).cmd = s.cmd := rfl
@[simp] theorem State.setCounters_addr (byte bit : Idx3) : (s.setCounters byte bit).addr = s.addr := rfl
@[simp] theorem State.setCounters_data (byte bit : Idx3) : (s.setCounters byte bit).data = s.data := rfl
@[simp] theorem State.setCounters_devid (byte bit : Idx3) : (s.setCounters byte bit).devid = s.devid := rfl
@[simp] theorem State.setCounters_crc (byte bit : Idx3) : (s.setCounters byte bit).crc = s.crc := rfl
@[simp] theorem State.setCounters_busy (byte bit : Idx3) : (s.setCounters byte bit).busy = s.busy := rfl
@[simp] theorem State.setCounters_done (byte bit : Idx3) : (s.setCounters byte bit).done = s.done := rfl
@[simp] theorem State.setCounters_err (byte bit : Idx3) : (s.setCounters byte bit).err = s.err := rfl
@[simp] theorem State.setCounters_byteIdx (byte bit : Idx3) : (s.setCounters byte bit).byteIdx = byte := rfl
@[simp] theorem State.setCounters_bitIdx (byte bit : Idx3) : (s.setCounters byte bit).bitIdx = bit := rfl
@[simp] theorem State.setCounters_inputs (byte bit : Idx3) : (s.setCounters byte bit).inputs = s.inputs := rfl

@[simp] theorem State.startFold_cmd : s.startFold.cmd = s.cmd := rfl
@[simp] theorem State.startFold_addr : s.startFold.addr = s.addr := rfl
@[simp] theorem State.startFold_data : s.startFold.data = s.data := rfl
@[simp] theorem State.startFold_devid : s.startFold.devid = s.devid := rfl
@[simp] theorem State.startFold_crc : s.startFold.crc = crcInit := rfl
@[simp] theorem State.startFold_busy : s.startFold.busy = true := rfl
@[simp] theorem State.startFold_done : s.startFold.done = false := rfl
@[simp] theorem State.startFold_err : s.startFold.err = false := rfl
@[simp] theorem State.startFold_byteIdx : s.startFold.byteIdx = 0#3 := rfl
@[simp] theorem State.startFold_bitIdx : s.startFold.bitIdx = 0#3 := rfl
@[simp] theorem State.startFold_inputs : s.startFold.inputs = s.inputs := rfl

@[simp] theorem State.consume_cmd : s.consume.cmd = s.cmd := rfl
@[simp] theorem State.consume_addr : s.consume.addr = s.addr := rfl
@[simp] theorem State.consume_data : s.consume.data = s.data := rfl
@[simp] theorem State.consume_devid : s.consume.devid = s.devid := rfl
@[simp] theorem State.consume_crc : s.consume.crc = s.crc := rfl
@[simp] theorem State.consume_busy : s.consume.busy = s.busy := rfl
@[simp] theorem State.consume_done : s.consume.done = s.done := rfl
@[simp] theorem State.consume_err : s.consume.err = s.err := rfl
@[simp] theorem State.consume_byteIdx : s.consume.byteIdx = s.byteIdx := rfl
@[simp] theorem State.consume_bitIdx : s.consume.bitIdx = s.bitIdx := rfl
@[simp] theorem State.consume_inputs : s.consume.inputs = s.inputs.tail := rfl

@[simp] theorem State.presentNext_cmd (p : PortInput) : (s.presentNext p).cmd = s.cmd := rfl
@[simp] theorem State.presentNext_addr (p : PortInput) : (s.presentNext p).addr = s.addr := rfl
@[simp] theorem State.presentNext_data (p : PortInput) : (s.presentNext p).data = s.data := rfl
@[simp] theorem State.presentNext_devid (p : PortInput) : (s.presentNext p).devid = s.devid := rfl
@[simp] theorem State.presentNext_crc (p : PortInput) : (s.presentNext p).crc = s.crc := rfl
@[simp] theorem State.presentNext_busy (p : PortInput) : (s.presentNext p).busy = s.busy := rfl
@[simp] theorem State.presentNext_done (p : PortInput) : (s.presentNext p).done = s.done := rfl
@[simp] theorem State.presentNext_err (p : PortInput) : (s.presentNext p).err = s.err := rfl
@[simp] theorem State.presentNext_byteIdx (p : PortInput) : (s.presentNext p).byteIdx = s.byteIdx := rfl
@[simp] theorem State.presentNext_bitIdx (p : PortInput) : (s.presentNext p).bitIdx = s.bitIdx := rfl
@[simp] theorem State.presentNext_inputs (p : PortInput) : (s.presentNext p).inputs = p :: s.inputs.tail := rfl

@[simp] theorem State.resetRegs_cmd : s.resetRegs.cmd = 0x00#8 := rfl
@[simp] theorem State.resetRegs_addr : s.resetRegs.addr = 0x0000#16 := rfl
@[simp] theorem State.resetRegs_data : s.resetRegs.data = 0x0000#16 := rfl
@[simp] theorem State.resetRegs_devid : s.resetRegs.devid = 0x0000#16 := rfl
@[simp] theorem State.resetRegs_crc : s.resetRegs.crc = 0x00#8 := rfl
@[simp] theorem State.resetRegs_busy : s.resetRegs.busy = false := rfl
@[simp] theorem State.resetRegs_done : s.resetRegs.done = false := rfl
@[simp] theorem State.resetRegs_err : s.resetRegs.err = false := rfl
@[simp] theorem State.resetRegs_byteIdx : s.resetRegs.byteIdx = 0#3 := rfl
@[simp] theorem State.resetRegs_bitIdx : s.resetRegs.bitIdx = 0#3 := rfl
@[simp] theorem State.resetRegs_inputs : s.resetRegs.inputs = s.inputs := rfl
@[simp] theorem State.withInputs_cmd (ps : List PortInput) : (s.withInputs ps).cmd = s.cmd := rfl
@[simp] theorem State.withInputs_addr (ps : List PortInput) : (s.withInputs ps).addr = s.addr := rfl
@[simp] theorem State.withInputs_data (ps : List PortInput) : (s.withInputs ps).data = s.data := rfl
@[simp] theorem State.withInputs_devid (ps : List PortInput) : (s.withInputs ps).devid = s.devid := rfl
@[simp] theorem State.withInputs_crc (ps : List PortInput) : (s.withInputs ps).crc = s.crc := rfl
@[simp] theorem State.withInputs_busy (ps : List PortInput) : (s.withInputs ps).busy = s.busy := rfl
@[simp] theorem State.withInputs_done (ps : List PortInput) : (s.withInputs ps).done = s.done := rfl
@[simp] theorem State.withInputs_err (ps : List PortInput) : (s.withInputs ps).err = s.err := rfl
@[simp] theorem State.withInputs_byteIdx (ps : List PortInput) : (s.withInputs ps).byteIdx = s.byteIdx := rfl
@[simp] theorem State.withInputs_bitIdx (ps : List PortInput) : (s.withInputs ps).bitIdx = s.bitIdx := rfl
@[simp] theorem State.withInputs_inputs (ps : List PortInput) : (s.withInputs ps).inputs = ps := rfl

end Sys2Proof.Machine
end

