-- ==== Sys2Proof/Laws/Ops.lean ====
section
/-! SUPPORT. What each shared operation can do, said once: accepting or dropping a command, the bit step, the frame multiplexer's dependence on the fields. -/

namespace Sys2Proof.Machine

variable {s : State}

/-! Accept or drop. -/

@[simp] theorem State.acceptOrDrop_idle (e : State) (h : s.busy = false) : s.acceptOrDrop e = e := by
  simp [acceptOrDrop, h]

@[simp] theorem State.acceptOrDrop_busy (e : State) (h : s.busy = true) : s.acceptOrDrop e = s.setErr := by
  simp [acceptOrDrop, h]

/-! The frame multiplexer reads the four field registers only. -/

/-- States with the same field registers have the same frame bytes. -/
theorem State.frameByte_congr {s t : State} (hc : s.cmd = t.cmd) (ha : s.addr = t.addr) (hd : s.data = t.data)
    (hv : s.devid = t.devid) (i : Idx3) : s.frameByte i = t.frameByte i := by
  simp [frameByte, hc, ha, hd, hv]

/-- States with the same field registers have the same frame. -/
theorem State.frame_congr {s t : State} (hc : s.cmd = t.cmd) (ha : s.addr = t.addr) (hd : s.data = t.data)
    (hv : s.devid = t.devid) : s.frame = t.frame := by
  simp [frame, frameByte_congr hc ha hd hv]

/-- The frame is the bytes of `compute`'s frame. -/
theorem State.frame_eq_frameBytes (s : State) : s.frame = frameBytes s.cmd s.addr s.data s.devid := rfl

/-! The advance (R142): three cases. -/

theorem State.advance_mid (h : s.bitIdx ≠ 7#3) : s.advance = s.setCounters s.byteIdx (s.bitIdx + 1#3) := by
  simp [advance, lastBit, h]

theorem State.advance_byte_end (h : s.bitIdx = 7#3) (hb : s.byteIdx ≠ 6#3) :
    s.advance = s.setCounters (s.byteIdx + 1#3) 0#3 := by
  simp [advance, lastBit, lastByte, h, hb]

theorem State.advance_final (h : s.bitIdx = 7#3) (hb : s.byteIdx = 6#3) :
    s.advance = (s.setCounters 0#3 0#3).flagsCompleted := by
  simp [advance, lastBit, lastByte, h, hb]

/-- What an advance can do: count a bit, end a byte, or complete. -/
theorem State.advance_cases (s : State) :
    (s.bitIdx ≠ 7#3 ∧ s.advance = s.setCounters s.byteIdx (s.bitIdx + 1#3)) ∨
    (s.bitIdx = 7#3 ∧ s.byteIdx ≠ 6#3 ∧ s.advance = s.setCounters (s.byteIdx + 1#3) 0#3) ∨
    (s.bitIdx = 7#3 ∧ s.byteIdx = 6#3 ∧ s.advance = (s.setCounters 0#3 0#3).flagsCompleted) := by
  by_cases h : s.bitIdx = 7#3
  · by_cases hb : s.byteIdx = 6#3
    · exact .inr (.inr ⟨h, hb, advance_final h hb⟩)
    · exact .inr (.inl ⟨h, hb, advance_byte_end h hb⟩)
  · exact .inl ⟨h, advance_mid h⟩

/-! The bit step writes neither ERR nor a field register nor the inputs to come. -/

@[simp] theorem State.bitStep_cmd (s : State) : s.bitStep.cmd = s.cmd := by
  rcases s.advance_cases with ⟨-, h⟩ | ⟨-, -, h⟩ | ⟨-, -, h⟩ <;> simp [bitStep, h]

@[simp] theorem State.bitStep_addr (s : State) : s.bitStep.addr = s.addr := by
  rcases s.advance_cases with ⟨-, h⟩ | ⟨-, -, h⟩ | ⟨-, -, h⟩ <;> simp [bitStep, h]

@[simp] theorem State.bitStep_data (s : State) : s.bitStep.data = s.data := by
  rcases s.advance_cases with ⟨-, h⟩ | ⟨-, -, h⟩ | ⟨-, -, h⟩ <;> simp [bitStep, h]

@[simp] theorem State.bitStep_devid (s : State) : s.bitStep.devid = s.devid := by
  rcases s.advance_cases with ⟨-, h⟩ | ⟨-, -, h⟩ | ⟨-, -, h⟩ <;> simp [bitStep, h]

@[simp] theorem State.bitStep_err (s : State) : s.bitStep.err = s.err := by
  rcases s.advance_cases with ⟨-, h⟩ | ⟨-, -, h⟩ | ⟨-, -, h⟩ <;> simp [bitStep, h]

@[simp] theorem State.bitStep_inputs (s : State) : s.bitStep.inputs = s.inputs := by
  rcases s.advance_cases with ⟨-, h⟩ | ⟨-, -, h⟩ | ⟨-, -, h⟩ <;> simp [bitStep, h]

@[simp] theorem State.bitStep_crc (s : State) : s.bitStep.crc = crc8Step s.stepInput := rfl

/-- BIT_IDX counts modulo 8 (R30). -/
@[simp] theorem State.bitStep_bitIdx (s : State) : s.bitStep.bitIdx = s.bitIdx + 1#3 := by
  rcases s.advance_cases with ⟨-, h⟩ | ⟨hb, -, h⟩ | ⟨hb, -, h⟩ <;> simp [bitStep, *]

/-- The bit step reads CRC, BIT_IDX, BYTE_IDX and the fields; ERR and the inputs to come pass through it. -/
theorem State.bitStep_passes (s : State) (e : Bool) (ps : List PortInput) :
    { s with err := e, inputs := ps }.bitStep = { s.bitStep with err := e, inputs := ps } := by
  have hi : { s with err := e, inputs := ps }.stepInput = s.stepInput := rfl
  simp only [bitStep, hi]
  by_cases h : s.bitIdx = 7#3
  · by_cases hb : s.byteIdx = 6#3
    · rw [advance_final (s := s) h hb, advance_final (s := { s with err := e, inputs := ps }) h hb]; rfl
    · rw [advance_byte_end (s := s) h hb, advance_byte_end (s := { s with err := e, inputs := ps }) h hb]; rfl
  · rw [advance_mid (s := s) h, advance_mid (s := { s with err := e, inputs := ps }) h]; rfl

theorem State.bitStep_setErr (s : State) : s.setErr.bitStep = s.bitStep.setErr := by
  simpa [setErr] using bitStep_passes s true s.inputs

@[simp] theorem State.bitStep_withInputs (s : State) (ps : List PortInput) :
    (s.withInputs ps).bitStep = s.bitStep.withInputs ps := by
  simpa [withInputs] using bitStep_passes s s.err ps

theorem State.bitStep_consume (s : State) : s.consume.bitStep = s.bitStep.consume := by
  simpa [consume] using bitStep_passes s s.err s.inputs.tail

@[simp] theorem State.sequencer_idle (n : State) : State.sequencer false n = n := rfl

@[simp] theorem State.sequencer_busy (n : State) : State.sequencer true n = n.bitStep := rfl

/-! Reset and sampling. -/

theorem State.resetRegs_eq (s : State) : s.resetRegs = State.reset.withInputs s.inputs := rfl

theorem State.consume_eq (s : State) : s.consume = s.withInputs s.inputs.tail := rfl

@[simp] theorem State.withInputs_withInputs (s : State) (ps qs : List PortInput) :
    (s.withInputs ps).withInputs qs = s.withInputs qs := rfl

/-! The ports. -/

@[simp] theorem State.port_withInputs (s : State) (p : PortInput) (ps : List PortInput) : (s.withInputs (p :: ps)).port = p := rfl

@[simp] theorem State.consume_withInputs (s : State) (p : PortInput) (ps : List PortInput) :
    (s.withInputs (p :: ps)).consume = s.withInputs ps := rfl

theorem State.port_cons {p : PortInput} {ps : List PortInput} (h : s.inputs = p :: ps) : s.port = p := by
  simp [port, h]

/-- Where no input is listed the edge samples NOP (log entry 1). -/
theorem State.port_nil (h : s.inputs = []) : s.port = PortInput.idle := by
  simp [port, h]

end Sys2Proof.Machine
end

