-- ==== Sys2Proof/Laws/PerInstr.lean ====
section
/-! SUPPORT. Facts about every instruction as syntax, one lemma per constructor. -/

namespace Sys2Proof.Laws.Encoding

open Sys2Proof Sys2Proof.Machine

/-- The word of an instruction has its opcode in bits 18:16 and 0 in every bit it ignores (R73, R77). -/
def Statement (i : Instr) : Prop := opOf (encode i) = i.opcode ∧ encode i &&& i.usedBits = encode i

theorem nop : Statement .nop := ⟨rfl, rfl⟩

theorem wrCmd (imm8 : Byte) : Statement (.wrCmd imm8) := by
  refine ⟨opOf_commandWord _ _, ?_⟩
  revert imm8; decide

theorem wrAddr (imm16 : Half) : Statement (.wrAddr imm16) := ⟨opOf_commandWord _ _, BitVec.and_allOnes⟩

theorem wrData (imm16 : Half) : Statement (.wrData imm16) := ⟨opOf_commandWord _ _, BitVec.and_allOnes⟩

theorem wrDevid (imm16 : Half) : Statement (.wrDevid imm16) := ⟨opOf_commandWord _ _, BitVec.and_allOnes⟩

theorem start : Statement .start := ⟨rfl, rfl⟩

theorem reserved6 : Statement .reserved6 := ⟨rfl, rfl⟩

theorem reserved7 : Statement .reserved7 := ⟨rfl, rfl⟩

end Sys2Proof.Laws.Encoding
end

