-- ==== Sys2Proof/Laws/Step.lean ====
section
/-! SUPPORT. The inversion lemmas of `exec` and `step`: the state a command leaves, the state an edge leaves, and running edges one after another. -/

namespace Sys2Proof.Machine

/-- The state a command leaves (part (B) of R150), as a plain function of the state its edge sees. -/
def effect (i : Instr) (s : State) : State :=
  match i with
  | .nop => s
  | .wrCmd v => s.acceptOrDrop (s.setCmd v)
  | .wrAddr v => s.acceptOrDrop (s.setAddr v)
  | .wrData v => s.acceptOrDrop (s.setData v)
  | .wrDevid v => s.acceptOrDrop (s.setDevid v)
  | .start => s.acceptOrDrop s.startFold
  | .reserved6 => s.setErr
  | .reserved7 => s.setErr

/-- `exec` answers the state `effect` gives. -/
theorem exec_eq_effect (i : Instr) (s : State) : exec i s = .next (effect i s) := by
  cases i <;> rfl

/-- While busy a command writes at most ERR (R150). -/
theorem effect_busy {s : State} (h : s.busy = true) (i : Instr) : effect i s = if i = .nop then s else s.setErr := by
  cases i <;> simp [effect, h]

/-- The state after the next edge. -/
def nextState (s : State) : State :=
  if s.port.rst then s.consume.resetRegs else State.sequencer s.busy (effect (decode s.port.word) s.consume)

/-- `step` answers the state `nextState` gives. -/
theorem step_eq_nextState (s : State) : step s = .next (nextState s) := by
  simp only [step, edge, nextState, exec_eq_effect, finishEdge, State.consume_busy]
  split <;> rfl

/-- What an edge can do: reset; run a command in an idle state; or make a bit step and set ERR unless the command is NOP. -/
theorem nextState_cases (s : State) :
    (s.port.rst = true ∧ nextState s = s.consume.resetRegs) ∨
    (s.port.rst = false ∧ s.busy = false ∧ nextState s = effect (decode s.port.word) s.consume) ∨
    (s.port.rst = false ∧ s.busy = true ∧
      nextState s = { s.bitStep with
        err := s.err || decide (decode s.port.word ≠ .nop), inputs := s.inputs.tail }) := by
  cases hr : s.port.rst with
  | true => exact .inl ⟨rfl, by simp [nextState, hr]⟩
  | false =>
    cases hb : s.busy with
    | false => exact .inr (.inl ⟨rfl, rfl, by simp [nextState, hr, hb]⟩)
    | true =>
      refine .inr (.inr ⟨rfl, rfl, ?_⟩)
      have he : effect (decode s.port.word) s.consume =
          { s with err := s.err || decide (decode s.port.word ≠ .nop), inputs := s.inputs.tail } := by
        rw [effect_busy (by simpa using hb)]
        by_cases hn : decode s.port.word = .nop <;> simp [hn, State.consume, State.setErr]
      rw [← State.bitStep_passes, ← he, nextState, hr, hb]
      rfl

/-! Running edges. -/

/-- The state after n edges. -/
def afterEdges : Nat → State → State
  | 0, s => s
  | n + 1, s => afterEdges n (nextState s)

/-- n steps of the machine always lead to `afterEdges n`. -/
theorem run_eq_afterEdges (n : Nat) (s : State) : Host.Core.run Sys2Proof.core n s = .next (afterEdges n s) := by
  induction n generalizing s with
  | zero => rfl
  | succ n ih =>
    have h : Sys2Proof.core.step s = .next (nextState s) := step_eq_nextState s
    simp only [Host.Core.run, h]
    exact ih _

/-- Edges run one after another. -/
theorem afterEdges_add (m n : Nat) (s : State) : afterEdges (m + n) s = afterEdges n (afterEdges m s) := by
  induction m generalizing s with
  | zero => simp [afterEdges]
  | succ m ih => rw [Nat.succ_add]; exact ih _

theorem afterEdges_succ (n : Nat) (s : State) : afterEdges (n + 1) s = nextState (afterEdges n s) := by
  rw [afterEdges_add]; rfl

/-- An edge removes the input it samples, whatever else it does. -/
@[simp] theorem nextState_inputs (s : State) : (nextState s).inputs = s.inputs.tail := by
  rcases nextState_cases s with ⟨-, h⟩ | ⟨-, hb, h⟩ | ⟨-, -, h⟩
  · simp [h]
  · rw [h]; cases decode s.port.word <;> simp [effect, hb]
  · simp [h]

end Sys2Proof.Machine
end

