-- ==== Sys2Proof/Tests/Slice0.lean ====
section
/-! SUPPORT. The model's own tests: expected values are those spec/95_test_vectors.md and the rules' examples print; and the witnesses that the obligations' hypotheses can be met. -/

namespace Sys2Proof.Tests

open Sys2Proof Sys2Proof.Machine

/-! Small states: the fields of V-SRC-1 (0x05, 0x0002, 0x0001, 0x0000) and the sequencer's registers. -/

/-- A state with the fields of V-SRC-1. -/
def sample (crc : Byte) (busy done err : Bool) (byte bit : Idx3) (inputs : List PortInput) : State :=
  { cmd := 0x05#8, addr := 0x0002#16, data := 0x0001#16, devid := 0x0000#16, crc := crc, busy := busy, done := done, err := err,
    byteIdx := byte, bitIdx := bit, inputs := inputs }

/-- After the result of V-SRC-1: idle, DONE = 1. -/
def doneState (inputs : List PortInput) : State := sample 0xEE#8 false true false 0#3 0#3 inputs

/-- After e0 of V-SRC-1. -/
def startedState (inputs : List PortInput) : State := sample 0x00#8 true false false 0#3 0#3 inputs

/-- After e0+10 of V-SRC-1. -/
def busyState (inputs : List PortInput) : State := sample 0x64#8 true false false 1#3 2#3 inputs

/-- After e0+55 of V-SRC-1, before the final bit step. -/
def finalState (inputs : List PortInput) : State := sample 0x77#8 true false false 6#3 7#3 inputs

/-- The inputs that present the word w. -/
def word (w : CW) : PortInput := PortInput.ofWord w

/-- What is read from the state after one step. -/
def afterStep {α : Type} (f : State → α) (s : State) : Option α :=
  match step s with
  | .next t => some (f t)
  | _ => none

/-! Well-formedness refuses an ill-formed term at each check (R70, R77). -/

theorem test_wordFits : wordFits 0x7FFFF = true ∧ wordFits 0x80000 = false := by decide
theorem test_imm8Fits : imm8Fits 0xFF = true ∧ imm8Fits 0x100 = false := by decide
theorem test_imm16Fits : imm16Fits 0xFFFF = true ∧ imm16Fits 0x10000 = false := by decide
theorem test_wellFormed_refuses :
    (AsmLine.wrCmd 0xABCD).wellFormed = false ∧ (AsmLine.wrAddr 0x101FF).wellFormed = false ∧
    (AsmLine.wrData 0x10000).wellFormed = false ∧ (AsmLine.wrDevid 0x10000).wellFormed = false ∧
    (AsmLine.word 0x80000).wellFormed = false ∧ (AsmLine.compute 0x100 0 0 0).wellFormed = false ∧
    (AsmLine.compute 0 0x10000 0 0).wellFormed = false ∧ (AsmLine.compute 0 0 0x10000 0).wellFormed = false ∧
    (AsmLine.compute 0 0 0 0x10000).wellFormed = false := by decide

/-! Decoding: each row's word written out bit by bit, CW[18] first (the `encoding` column of the table, R73). -/

theorem test_decode_nop : decode 0b0001111111111111111#19 = .nop := by decide
theorem test_decode_wrCmd : decode 0b0011010101111001101#19 = .wrCmd 0xCD#8 := by decide
theorem test_decode_wrAddr : decode 0b0100000000100000010#19 = .wrAddr 0x0102#16 := by decide
theorem test_decode_wrData : decode 0b0110000000000000001#19 = .wrData 0x0001#16 := by decide
theorem test_decode_wrDevid : decode 0b1001011111011101111#19 = .wrDevid 0xBEEF#16 := by decide
theorem test_decode_start : decode 0b1010000000000000000#19 = .start := by decide
theorem test_decode_reserved6 : decode 0b1100000000000000000#19 = .reserved6 := by decide
theorem test_decode_reserved7 : decode 0b1110000000000000000#19 = .reserved7 := by decide
theorem test_decode_refuses_wide : decodeWord 0x80000 = .error .wordTooWide ∧ decodeTableWord 24 0x80000 = none := by
  decide
theorem test_decodeTableWord : decodeTableWord 24 0x10005 = some (.wrCmd 0x05#8) ∧
    decodeTableWord 24 0x70000 = some .reserved7 := by decide

/-! Presenting a word: the first step after reset samples it (V-CE-29, V-FB-1, V-CE-20). -/

theorem test_fetch_reserved6 : afterStep State.status (State.reset.withFetchWord 24 0x60000) = some 0x0004#16 := by decide
theorem test_fetch_wrCmd : afterStep State.cmd (State.reset.withFetchWord 24 0x1ABCD) = some 0xCD#8 := by decide
theorem test_fetch_start : afterStep State.status (State.reset.withFetchWord 24 0x50000) = some 0x0001#16 := by decide

/-! Field writes (spec/95_test_vectors.md section 2.3). -/

/-- V-FB-1. -/
theorem test_wrCmd_masks : afterStep (fun t => (t.cmd, t.fbyte, t.err)) (State.reset.withInputs [word 0x1ABCD#19]) =
    some (0xCD#8, 0xCD#8, false) := by decide
/-- V-CE-25. -/
theorem test_wrCmd_final_edge : afterStep (fun t => (t.cmd, t.crc, t.status)) (finalState [word 0x10077#19]) =
    some (0x05#8, 0xEE#8, 0x0006#16) := by decide
/-- V-FB-2. -/
theorem test_wrAddr_bytes : afterStep (fun t => (t.addr, t.frameByte 1#3, t.frameByte 2#3))
    (State.reset.withInputs [word 0x20102#19]) = some (0x0102#16, 0x02#8, 0x01#8) := by decide
/-- V-FB-6. -/
theorem test_wrAddr_busy : afterStep (fun t => (t.addr, t.err, t.crc)) (busyState [word 0x2FFFF#19]) =
    some (0x0002#16, true, 0xC8#8) := by decide
/-- V-FB-5. -/
theorem test_wrData_done : afterStep (fun t => (t.data, t.done, t.crc)) (doneState [word 0x31234#19]) =
    some (0x1234#16, true, 0xEE#8) := by decide
/-- V-FB-3. -/
theorem test_wrDevid_bytes : afterStep (fun t => (t.frameByte 5#3, t.frameByte 6#3))
    (State.reset.withInputs [word 0x4BEEF#19]) = some (0xEF#8, 0xBE#8) := by decide

/-! The engine (spec/95_test_vectors.md section 2.4). -/

/-- V-CE-21. -/
theorem test_nop_first_bit : afterStep (fun t => (t.crc, t.status)) (startedState [word 0x00000#19]) =
    some (0x0A#8, 0x0011#16) := by decide
/-- V-CE-22: after e0+7 the last bit step of byte 0. -/
theorem test_nop_byte_end : afterStep (fun t => (t.crc, t.status)) (sample 0x8E#8 true false false 0#3 7#3 [word 0#19]) =
    some (0x1B#8, 0x0101#16) := by decide
/-- V-CE-23, presented by no listed input (log entry 1). -/
theorem test_final_step : afterStep (fun t => (t.crc, t.status)) (finalState []) = some (0xEE#8, 0x0002#16) := by decide
/-- V-CE-24. -/
theorem test_start_final_edge : afterStep (fun t => (t.crc, t.status)) (finalState [word 0x50000#19]) =
    some (0xEE#8, 0x0006#16) := by decide
/-- V-CE-26, V-CE-33. -/
theorem test_start_accepted : afterStep (fun t => (t.crc, t.status, t.fbyte)) (doneState [word 0x5FFFF#19]) =
    some (0x00#8, 0x0001#16, 0x05#8) := by decide
/-- V-CE-28. -/
theorem test_reserved7_busy : afterStep (fun t => (t.crc, t.status)) (busyState [word 0x70000#19]) =
    some (0xC8#8, 0x0135#16) := by decide
/-- V-CE-31. -/
theorem test_reset_midway : afterStep id (busyState [⟨true, 0b101#3, 0x1234#16⟩]) = some State.reset := by decide

/-! The pure functions (spec/95_test_vectors.md sections 2.1, 2.2). -/

theorem test_crc8Step :
    crc8Step 0x00#8 = 0x00#8 ∧ crc8Step 0x01#8 = 0x02#8 ∧ crc8Step 0x40#8 = 0x80#8 ∧ crc8Step 0x7F#8 = 0xFE#8 ∧
    crc8Step 0x80#8 = 0x07#8 ∧ crc8Step 0xC0#8 = 0x87#8 ∧ crc8Step 0xFF#8 = 0xF9#8 ∧ crc8Step 0xAA#8 = 0x53#8 ∧
    crc8Step 0x55#8 = 0xAA#8 := by decide
/-- V-CE-3, V-CE-4, V-CE-5, V-CE-6. -/
theorem test_crc8_short : crc8 [0x01#8] = 0x07#8 ∧ crc8 [0x80#8] = 0x89#8 ∧ crc8 [0xFF#8] = 0xF3#8 ∧ crc8 [] = 0x00#8 := by
  decide +kernel
/-- V-CE-1, V-CE-7, V-CE-8, V-SRC-4, V-CE-12. -/
theorem test_compute :
    compute 0x05#8 0x0002#16 0x0001#16 0x0000#16 = 0xEE#8 ∧ compute 0xFF#8 0xFFFF#16 0xFFFF#16 0xFFFF#16 = 0x0C#8 ∧
    compute 0xA5#8 0x1234#16 0xBEEF#16 0xCAFE#16 = 0xBC#8 ∧ compute 0x05#8 0x0102#16 0#16 0#16 = 0x9A#8 ∧
    compute 0x05#8 0x0201#16 0#16 0#16 = 0x47#8 ∧ compute 0x00#8 0#16 0#16 0x8000#16 = 0x89#8 := by decide +kernel
/-- V-CE-9. -/
theorem test_crc8_check_value :
    crc8 [0x31#8, 0x32#8, 0x33#8, 0x34#8, 0x35#8, 0x36#8, 0x37#8, 0x38#8, 0x39#8] = 0xF4#8 := by decide +kernel
/-- V-SRC-3b and the command of V-FB-1 unmasked: the reference algorithm of claims. -/
theorem test_srcCompute : srcCompute 0x05 0x101FF 0 0 = 0x67 ∧ srcCompute 0xABCD 0 0 0 = 0x8F := by decide +kernel

/-! The command-sequence language (R77, R78). -/

/-- `WR_CMD 0x05 ; x` and `WR_CMD 0xABCD` (refused, P5). -/
theorem test_text_wrCmd :
    assembleText ['W', 'R', '_', 'C', 'M', 'D', ' ', '0', 'x', '0', '5', ' ', ';', ' ', 'x'] = .ok [word 0x10005#19] ∧
    assembleText ['W', 'R', '_', 'C', 'M', 'D', ' ', '0', 'x', 'A', 'B', 'C', 'D'] = .error .operandTooWide := by
  decide +kernel
/-- `.word 0x60000`, then `RESET`; the number alone and an unknown word are refused. -/
theorem test_text_word_reset :
    assembleText ['.', 'w', 'o', 'r', 'd', ' ', '0', 'x', '6', '0', '0', '0', '0', '\n', 'R', 'E', 'S', 'E', 'T', '\n'] =
      .ok [word 0x60000#19, ⟨true, 0b000#3, 0#16⟩] ∧
    assembleText ['W', 'A', 'I', 'T', ' ', '1', 'x'] = .error .badNumber ∧
    assembleText ['H', 'A', 'L', 'T'] = .error .badLine := by decide +kernel
/-- `COMPUTE 5, 2, 1, 0`: the words of program P1. -/
theorem test_text_compute :
    assembleText ['C', 'O', 'M', 'P', 'U', 'T', 'E', ' ', '5', ',', ' ', '2', ',', '1', ' ', ',', '0'] =
      .ok ([word 0x10005#19, word 0x20002#19, word 0x30001#19, word 0x40000#19, word 0x50000#19] ++
        List.replicate 56 (word 0x00000#19)) := by decide +kernel

/-! Two instances (R179): an edge of one leaves the other. -/

theorem test_system_edge :
    (match System.edgeAt 1 ⟨[doneState [], State.reset.withInputs [word 0x60000#19]]⟩ with
      | .next y => y.instances.map State.status
      | _ => []) = [0x0002#16, 0x0004#16] := by decide

/-! Witnesses: a state and operands that meet each statement's hypotheses together, clause by clause. -/

/-- The word of a NOP, of a START and of a reset edge. -/
def nopIn : PortInput := ⟨false, 0b000#3, 0#16⟩
def startIn : PortInput := ⟨false, 0b101#3, 0#16⟩
def resetIn : PortInput := ⟨true, 0b101#3, 0xFFFF#16⟩

theorem witness_StepRunsTheSampledCommand :
    (State.reset.inputs = [] ∧ State.reset.port.rst = false) ∧
    ((busyState [startIn, nopIn]).inputs = startIn :: [nopIn] ∧ (busyState [startIn, nopIn]).port.rst = false) ∧
    (busyState [resetIn]).port.rst = true := by decide

theorem witness_StepIsThePrintedFunction : (busyState []).busy = true ∧ (doneState []).busy = false := by decide

theorem witness_PresentedWordIsSampledNext :
    ((0x7FFFF : Nat) < 2 ^ 24 ∧ (0x7FFFF : Nat) < 2 ^ 19) ∧ (0x80000 : Nat) < 2 ^ 24 ∧ 2 ^ 19 ≤ (0x80000 : Nat) := by decide

theorem witness_EncodeOfDecodeClearsIgnoredBits :
    (0x5FFFF#19 &&& (decode 0x50000#19).usedBits = 0x50000#19 &&& (decode 0x50000#19).usedBits) ∧
    (0x1ABCD#19 &&& (decode 0x100CD#19).usedBits = 0x100CD#19 &&& (decode 0x100CD#19).usedBits) := by decide

/-- NOP, the field writes, START and the reserved opcodes: an idle state, a busy one, one at the final bit step. -/
theorem witness_commands :
    ((doneState []).busy = false ∧ (doneState []).byteIdx = 0#3) ∧ (busyState []).busy = true ∧
    (finalState []).busy = true ∧ (finalState []).byteIdx = 6#3 ∧ (finalState []).bitIdx = 7#3 := by decide

theorem witness_WrCmdWritesTheCommandField : (finalState []).busy = true ∧ (finalState []).atFinalBit := by
  exact ⟨rfl, rfl, rfl⟩

theorem witness_StartBeginsAComputation :
    (let s := doneState (startIn :: List.replicate 56 nopIn)
     s.busy = false ∧ s.inputs = startIn :: List.replicate 56 nopIn ∧ s.cmd = 0x05#8 ∧ s.addr = 0x0002#16 ∧ s.data = 0x0001#16 ∧
       s.devid = 0x0000#16) ∧
    (let s := State.reset.withInputs (startIn :: List.replicate 56 nopIn)
     s.busy = false ∧ s.cmd = 0x00#8 ∧ s.addr = 0x0000#16 ∧ s.data = 0x0000#16 ∧ s.devid = 0x0000#16) ∧
    (finalState []).atFinalBit := by
  exact ⟨⟨rfl, rfl, rfl, rfl, rfl, rfl⟩, ⟨rfl, rfl, rfl, rfl, rfl⟩, rfl, rfl⟩

theorem witness_ReservedOpcodesSetOnlyErr :
    (State.reset.busy = false ∧ State.reset.done = false ∧ State.reset.byteIdx = 0#3 ∧ State.reset.bitIdx = 0#3) ∧
    (let s := sample 0x64#8 true false true 1#3 2#3 [nopIn, word 0x10005#19]
     s.err = true ∧ (∀ p ∈ s.inputs, p.rst = false) ∧ ∀ p ∈ s.inputs, p.instr ≠ .start) := by decide

theorem witness_FieldWriteChangesExactlyOneField :
    (∃ i : Instr, i = .wrCmd 0xFF#8 ∨ i = .wrAddr 0xFFFF#16 ∨ i = .wrData 0xFFFF#16 ∨ i = .wrDevid 0xFFFF#16) ∧
    (doneState []).busy = false ∧ (busyState []).busy = true := ⟨⟨.wrCmd 0xFF#8, .inl rfl⟩, rfl, rfl⟩

/-- Each of (E1), (E2), (E3), in the states where it holds. -/
theorem witness_ErrIsSetExactlyByMisuse :
    (busyState [resetIn]).port.rst = true ∧
    ((busyState [word 0x2FFFF#19]).port.rst = false ∧ (busyState [word 0x2FFFF#19]).port.misuses true) ∧
    (busyState [startIn]).port.misuses true ∧ (doneState [word 0x60000#19]).port.misuses false := by
  exact ⟨rfl, ⟨rfl, rfl⟩, rfl, trivial⟩

/-- An accepted START, a bit step, an idle edge that is no START, a reset: the clauses of the register rules. -/
theorem witness_register_rules :
    (busyState [resetIn]).port.rst = true ∧ (doneState [startIn]).acceptsStart ∧
    ((busyState [nopIn]).port.rst = false ∧ (busyState [nopIn]).busy = true) ∧
    ((doneState [nopIn]).port.rst = false ∧ (doneState [nopIn]).busy = false ∧ ¬ (doneState [nopIn]).acceptsStart) := by
  refine ⟨rfl, ⟨rfl, rfl, by decide⟩, ⟨rfl, rfl⟩, rfl, rfl, fun h => ?_⟩
  exact absurd h.2.2 (by decide)

/-- A bit step within a byte, at the end of byte 0 and of byte 5, and the final one. -/
theorem witness_BitStepAdvancesAndCompletes :
    ((busyState [startIn]).busy = true ∧ (busyState [startIn]).port.rst = false ∧ (busyState [startIn]).bitIdx ≠ 7#3) ∧
    (let s := sample 0x8E#8 true false false 0#3 7#3 [nopIn]
     s.busy = true ∧ s.port.rst = false ∧ s.bitIdx = 7#3 ∧ s.byteIdx ≠ 6#3) ∧
    (let s := sample 0x11#8 true false false 5#3 7#3 [nopIn]
     s.busy = true ∧ s.port.rst = false ∧ s.bitIdx = 7#3 ∧ s.byteIdx ≠ 6#3) ∧
    ((finalState [nopIn]).busy = true ∧ (finalState [nopIn]).port.rst = false ∧ (finalState [nopIn]).bitIdx = 7#3 ∧
      (finalState [nopIn]).byteIdx = 6#3) := by decide

/-- An accepted write of each field, a dropped write, a command that writes no field. -/
theorem witness_FieldsChangeOnlyByAcceptedWriteOrReset :
    (doneState [word 0x10005#19]).port.instr = .wrCmd 0x05#8 ∧ (doneState [word 0x2FFFF#19]).port.instr = .wrAddr 0xFFFF#16 ∧
    (doneState [word 0x3FFFF#19]).port.instr = .wrData 0xFFFF#16 ∧ (doneState [word 0x4FFFF#19]).port.instr = .wrDevid 0xFFFF#16 ∧
    (doneState []).busy = false ∧ (busyState [word 0x10005#19]).busy = true ∧
    (∀ v, (doneState [nopIn]).port.instr ≠ .wrCmd v) := by
  refine ⟨by decide, by decide, by decide, by decide, rfl, rfl, fun v h => ?_⟩
  have : (doneState [nopIn]).port.instr = .nop := by decide
  rw [this] at h
  cases h

theorem busyState_inv (ps : List PortInput) : (busyState ps).inv := by
  refine ⟨fun _ => ?_, fun h => ?_, fun h => ?_⟩
  · show 1#3 ≤ 6#3
    decide
  · cases h
  · exact Bool.false_ne_true h.2

/-- A busy state that meets (I1) to (I3) and (I5): after e0+10 of V-SRC-1. -/
theorem witness_StepKeepsTheFoldInvariant : (busyState []).inv ∧ (busyState []).folds :=
  ⟨busyState_inv [], fun _ => by decide +kernel⟩

theorem witness_StepKeepsTheSequencerInvariant : (busyState []).inv := busyState_inv []

/-- (I4): a START accepted at the first edge after reset, and the state after it busy. -/
theorem witness_ReachableStatesMeetTheInvariants :
    let s := State.reset.withInputs [startIn]
    runsTo 0 s s ∧ s.acceptsStart ∧ ∀ (k : Nat) (v : State), 0 < k → k ≤ 1 → runsTo k s v → v.busy = true := by
  refine ⟨rfl, ⟨rfl, rfl, by decide⟩, fun k v h h' hr => ?_⟩
  obtain rfl : k = 1 := by omega
  unfold runsTo at hr
  rw [run_eq_afterEdges] at hr
  injection hr with hr
  rw [← hr]
  decide

theorem witness_FbyteShowsTheSelectedByte : (doneState []).inv ∧ (doneState []).busy = false := by
  refine ⟨⟨fun h => ?_, fun _ => ⟨rfl, rfl⟩, fun h => ?_⟩, rfl⟩
  · cases h
  · exact absurd h.1 (by decide)

theorem witness_FrameSwapsAndIsInjective : (doneState []).frame = (busyState []).frame := rfl

theorem witness_CrcIsLinear : [0x05#8, 0x80#8].length = [0xA5#8, 0xFF#8].length := rfl

/-- The first and the last bit of a byte. -/
theorem witness_OneBitErrorsAreDetected : 0 < [0x05#8].length ∧ (0 : Nat) < 8 ∧ (7 : Nat) < 8 := by decide

/-- A START and no, or 55, edges after it. -/
theorem witness_RunningCrcFollowsTheSource :
    ∀ n, n = 0 ∨ n = 55 → let s := doneState (startIn :: List.replicate n (word 0x2FFFF#19) ++ [startIn])
      s.inputs = startIn :: List.replicate n (word 0x2FFFF#19) ++ [startIn] ∧ startIn.rst = false ∧ startIn.instr = .start ∧
      s.busy = false ∧ noReset (List.replicate n (word 0x2FFFF#19)) ∧ (List.replicate n (word 0x2FFFF#19)).length ≤ 55 := by
  intro n hn
  refine ⟨rfl, rfl, by decide, rfl, fun p hp => ?_, by simp; omega⟩
  rw [List.eq_of_mem_replicate hp]
  rfl

/-- A START, 56 edges that are not all NOP, and two edges after them that neither reset nor START. -/
theorem witness_ComputationGivesTheCrc :
    let ps := word 0x2FFFF#19 :: List.replicate 55 nopIn
    let qs := [nopIn, word 0x31234#19]
    let s := doneState (startIn :: ps ++ (qs ++ [startIn]))
    s.inputs = startIn :: ps ++ (qs ++ [startIn]) ∧ startIn.rst = false ∧ startIn.instr = .start ∧ s.busy = false ∧ noReset ps ∧
    ps.length = 56 ∧ (∀ q ∈ qs, q.rst = false) ∧ ∀ q ∈ qs, q.instr ≠ .start := by
  refine ⟨rfl, rfl, by decide, rfl, fun p hp => ?_, rfl, by decide, by decide⟩
  rcases List.mem_cons.1 hp with h | h
  · rw [h]; rfl
  · rw [List.eq_of_mem_replicate h]; rfl

/-- The two clauses of R195: a command at e0+1 and at the final edge e0+56 (0 and 55 edges before it), a START at e0+57. -/
theorem witness_CommandsAreDroppedUpToTheFinalEdge :
    ∀ n, n = 0 ∨ n = 55 ∨ n = 56 → let s := doneState (startIn :: List.replicate n nopIn ++ [startIn])
      s.inputs = startIn :: List.replicate n nopIn ++ [startIn] ∧ startIn.rst = false ∧ startIn.instr = .start ∧
      s.busy = false ∧ noReset (List.replicate n nopIn) ∧ (List.replicate n nopIn).length = n := by
  intro n hn
  refine ⟨rfl, rfl, by decide, rfl, fun p hp => ?_, List.length_replicate⟩
  rw [List.eq_of_mem_replicate hp]
  rfl

theorem witness_ResultIsHeldUntilStartOrReset :
    let ps := [nopIn, word 0x31234#19, word 0x60000#19]
    (doneState (ps ++ [startIn])).inputs = ps ++ [startIn] ∧ (doneState (ps ++ [startIn])).busy = false ∧
    (∀ p ∈ ps, p.rst = false) ∧ ∀ p ∈ ps, p.instr ≠ .start := by decide

/-- The writes in the order of the data sheet's fields reversed, from a busy state. -/
theorem witness_BootSequenceComputes :
    let ws := [present (.wrDevid 0x0000#16), present (.wrData 0x0001#16), present (.wrAddr 0x0002#16), present (.wrCmd 0x05#8)]
    let s := busyState (resetIn :: ws ++ present .start :: List.replicate 56 (present .nop) ++ [])
    List.Perm ws [present (.wrCmd 0x05#8), present (.wrAddr 0x0002#16), present (.wrData 0x0001#16), present (.wrDevid 0x0000#16)] ∧
    s.inputs = ⟨true, 0b101#3, 0xFFFF#16⟩ :: ws ++ present .start :: List.replicate 56 (present .nop) ++ [] :=
  ⟨(List.reverse_perm _).symm.trans (List.Perm.refl _), rfl⟩

/-- Operands at both sides of each bound. -/
theorem witness_AssemblerEncodesAndRefuses :
    (0xFF : Nat) ≤ 0xFF ∧ (0xFF : Nat) < 0x100 ∧ (0xFFFF : Nat) ≤ 0xFFFF ∧ (0xFFFF : Nat) < 0x10000 ∧ (0x7FFFF : Nat) < 2 ^ 19 := by
  decide

theorem witness_PseudoInstructionsExpand :
    let ps := AsmLine.inputs (.compute 0xFF 0xFFFF 0xFFFF 0xFFFF)
    (doneState (ps ++ [])).busy = false ∧ (doneState (ps ++ [])).inputs = ps ++ [] := ⟨rfl, rfl⟩

/-- Two systems that agree on instance 0 and differ on instance 1, with one edge each of instance 0. -/
theorem witness_InstancesDoNotInterfere :
    (⟨[doneState [], busyState []]⟩ : System).instances[0]? = (⟨[doneState [], State.reset]⟩ : System).instances[0]? ∧
    [0, 1, 1].count 0 = [1, 0].count 0 := by decide

/-- Its inner hypotheses: a system with instance 0, and one of INSTANCE_COUNT instances. -/
theorem witness_InstancesDoNotInterfere_clauses :
    (⟨[doneState [], busyState []]⟩ : System).instances[0]? = some (doneState []) ∧
    (⟨List.replicate Config.instanceCount State.reset⟩ : System).sized :=
  ⟨rfl, List.length_replicate⟩

end Sys2Proof.Tests
end

/-! PROOFS. The state's registers: what an edge does to the sequencer's registers and to the fields, the outputs `status` and
`fbyte`, and the invariants of R31 along every run. -/

namespace Sys2Proof.Machine

/-! The outputs (spec/10_state.md R32, R34). -/

section Outputs

variable (s : State)

@[simp] theorem State.status_getElem_zero : s.status[0] = s.busy := by
  simp [status]

@[simp] theorem State.status_getElem_one : s.status[1] = s.done := by
  simp [status]

@[simp] theorem State.status_getElem_two : s.status[2] = s.err := by
  simp [status]

@[simp] theorem State.status_getElem_three : s.status[3] = false := by
  simp [status]

@[simp] theorem State.status_getElem_seven : s.status[7] = false := by
  simp [status]

/-- STATUS[6:4] is BIT_IDX. -/
@[simp] theorem State.status_bitIdx : s.status.extractLsb' 4 3 = s.bitIdx := by
  apply BitVec.eq_of_getLsbD_eq
  intro i hi
  interval_cases i <;> simp [status]

/-- STATUS[10:8] is BYTE_IDX. -/
@[simp] theorem State.status_byteIdx : s.status.extractLsb' 8 3 = s.byteIdx := by
  apply BitVec.eq_of_getLsbD_eq
  intro i hi
  interval_cases i <;> simp [status]

/-- STATUS[15:11] is reserved. -/
@[simp] theorem State.status_reserved_high : s.status.extractLsb' 11 5 = 0#5 := by
  apply BitVec.eq_of_getLsbD_eq
  intro i hi
  interval_cases i <;> simp [status]

@[simp] theorem State.frameByte_zero : s.frameByte 0#3 = s.cmd := rfl

/-- The frame as a list and the multiplexer agree at every index; the list has no element 7, where the multiplexer reads 0x00. -/
theorem State.frame_getD (i : Idx3) : s.frame.getD i.toNat 0#8 = s.frameByte i := by
  rcases opcode_cases i with rfl | rfl | rfl | rfl | rfl | rfl | rfl | rfl <;> rfl

end Outputs

/-- Settles O29: each field of STATUS is read off the shifted parts that `State.status` joins. -/
theorem statusWordLayout : Obligations.StatusWordLayout := by
  refine ⟨rfl, fun s => ?_⟩
  simp

/-- Settles O30: while idle (I2) puts BYTE_IDX at 0, where the multiplexer selects CMD. -/
theorem fbyteShowsTheSelectedByte : Obligations.FbyteShowsTheSelectedByte := by
  refine fun s => ⟨rfl, fun ⟨_, hIdle, _⟩ hb => ?_⟩
  simp [State.fbyte, (hIdle hb).1]

/-! The bit step, register by register (R142). -/

/-- What a bit step does to BYTE_IDX, BUSY and DONE: nothing within a byte, the next byte at a byte's end, completion at the
frame's end. (`State.bitStep_bitIdx` and `State.bitStep_crc` say what it does to the other two.) -/
theorem State.bitStep_cases (s : State) :
    (s.bitIdx ≠ 7#3 ∧ s.bitStep.byteIdx = s.byteIdx ∧ s.bitStep.busy = s.busy ∧ s.bitStep.done = s.done) ∨
    (s.bitIdx = 7#3 ∧ s.byteIdx ≠ 6#3 ∧
      s.bitStep.byteIdx = s.byteIdx + 1#3 ∧ s.bitStep.busy = s.busy ∧ s.bitStep.done = s.done) ∨
    (s.atFinalBit ∧ s.bitStep.byteIdx = 0#3 ∧ s.bitStep.busy = false ∧ s.bitStep.done = true) := by
  rcases s.advance_cases with ⟨hbit, h⟩ | ⟨hbit, hbyte, h⟩ | ⟨hbit, hbyte, h⟩
  · exact .inl ⟨hbit, by simp [bitStep, h]⟩
  · exact .inr (.inl ⟨hbit, hbyte, by simp [bitStep, h]⟩)
  · exact .inr (.inr ⟨⟨hbyte, hbit⟩, by simp [bitStep, h]⟩)

/-- The final bit step clears BUSY and no other bit step changes it. -/
theorem State.bitStep_busy_iff (s : State) : s.bitStep.busy = true ↔ s.busy = true ∧ ¬ s.atFinalBit := by
  rcases s.bitStep_cases with ⟨hbit, -, hb, -⟩ | ⟨-, hbyte, -, hb, -⟩ | ⟨hf, -, hb, -⟩
  · simp [hb, atFinalBit, hbit]
  · simp [hb, atFinalBit, hbyte]
  · simp [hb, hf]

/-- The final bit step sets DONE and no other bit step changes it. -/
theorem State.bitStep_done_iff (s : State) : s.bitStep.done = true ↔ s.atFinalBit ∨ s.done = true := by
  rcases s.bitStep_cases with ⟨hbit, -, -, hd⟩ | ⟨-, hbyte, -, -, hd⟩ | ⟨hf, -, -, hd⟩
  · simp [hd, atFinalBit, hbit]
  · simp [hd, atFinalBit, hbyte]
  · simp [hd, hf]

/-! What an edge does, as the register rules R25 to R30 tell it. -/

/-- Two states agree in the registers of the sequencer, R25 to R30 without ERR. -/
structure State.SameSequencer (s t : State) : Prop where
  crc : t.crc = s.crc
  busy : t.busy = s.busy
  done : t.done = s.done
  byteIdx : t.byteIdx = s.byteIdx
  bitIdx : t.bitIdx = s.bitIdx

/-- Two states agree in the four field registers. -/
structure State.SameFields (s t : State) : Prop where
  cmd : t.cmd = s.cmd
  addr : t.addr = s.addr
  data : t.data = s.data
  devid : t.devid = s.devid

/-- In an idle state only START writes a register of the sequencer. -/
theorem effect_sameSequencer {s : State} (hb : s.busy = false) {i : Instr} (hi : i ≠ .start) :
    s.SameSequencer (effect i s) := by
  cases i with
  | start => exact absurd rfl hi
  | nop | reserved6 | reserved7 => exact ⟨rfl, rfl, rfl, rfl, rfl⟩
  | wrCmd v | wrAddr v | wrData v | wrDevid v => constructor <;> simp [effect, hb]

/-- What an edge does to the registers of the sequencer: reset, an accepted START, nothing in an idle state otherwise, a bit step
in a busy one. -/
theorem nextState_sequencer_cases (s : State) :
    (s.port.rst = true ∧ nextState s = s.consume.resetRegs) ∨
    (s.acceptsStart ∧ nextState s = s.consume.startFold) ∨
    (s.port.rst = false ∧ s.busy = false ∧ ¬ s.acceptsStart ∧ s.SameSequencer (nextState s)) ∨
    (s.port.rst = false ∧ s.busy = true ∧
      nextState s = { s.bitStep with err := s.err || decide (s.port.instr ≠ .nop), inputs := s.inputs.tail }) := by
  rcases nextState_cases s with ⟨hr, h⟩ | ⟨hr, hb, h⟩ | ⟨hr, hb, h⟩
  · exact .inl ⟨hr, h⟩
  · by_cases hi : s.port.instr = .start
    · refine .inr (.inl ⟨⟨hr, hb, hi⟩, ?_⟩)
      rw [h, show decode s.port.word = .start from hi]
      simp [effect, hb]
    · refine .inr (.inr (.inl ⟨hr, hb, fun ⟨_, _, hs⟩ => hi hs, ?_⟩))
      rw [h]
      obtain ⟨hcrc, hbusy, hdone, hbyte, hbit⟩ := effect_sameSequencer (s := s.consume) hb hi
      exact ⟨hcrc, hbusy, hdone, hbyte, hbit⟩
  · exact .inr (.inr (.inr ⟨hr, hb, h⟩))

/-- A busy state accepts no START. -/
theorem State.not_acceptsStart_of_busy {s : State} (hb : s.busy = true) : ¬ s.acceptsStart := by
  simp [acceptsStart, hb]

/-- A reset edge accepts no START. -/
theorem State.not_acceptsStart_of_rst {s : State} (hr : s.port.rst = true) : ¬ s.acceptsStart := by
  simp [acceptsStart, hr]

/-- Settles O19: in each case of `nextState_sequencer_cases` both sides of R26 and R27 are known. -/
theorem busyAndDoneFollowStartAndCompletion : Obligations.BusyAndDoneFollowStartAndCompletion := by
  refine fun s => ⟨rfl, rfl, s.status_getElem_zero, s.status_getElem_one, nextState s, step_eq_nextState s, ?_⟩
  rcases nextState_sequencer_cases s with ⟨hr, h⟩ | ⟨hs, h⟩ | ⟨hr, hb, hs, h⟩ | ⟨hr, hb, h⟩
  · simp [h, hr]
  · have ⟨hr, hb, _⟩ := hs
    simp [h, hs, hr, hb]
  · simp [h.busy, h.done, hs, hr, hb]
  · simp [h, s.not_acceptsStart_of_busy hb, hr, hb, s.bitStep_busy_iff, s.bitStep_done_iff]

/-- Settles O20: CRC in each case of `nextState_sequencer_cases`. -/
theorem crcHasThreeWriters : Obligations.CrcHasThreeWriters := by
  refine fun s => ⟨rfl, nextState s, step_eq_nextState s, ?_⟩
  rcases nextState_sequencer_cases s with ⟨hr, h⟩ | ⟨hs, h⟩ | ⟨hr, hb, hs, h⟩ | ⟨hr, hb, h⟩
  · simp [h, hr]
  · have ⟨hr, hb, _⟩ := hs
    simp [h, hs, hr, hb, crcInit]
  · simp [h.crc, hs, hr, hb]
  · simp [h, State.not_acceptsStart_of_busy hb, hr, hb, State.stepInput]

/-- Settles O21: BIT_IDX in each case of `nextState_sequencer_cases`; its increment at three bits is modulo 8. -/
theorem bitIndexCountsBitSteps : Obligations.BitIndexCountsBitSteps := by
  refine fun s => ⟨rfl, s.status_bitIdx, nextState s, step_eq_nextState s, ?_⟩
  rcases nextState_sequencer_cases s with ⟨hr, h⟩ | ⟨hs, h⟩ | ⟨hr, hb, hs, h⟩ | ⟨hr, hb, h⟩
  · simp [h, hr]
  · have ⟨hr, hb, _⟩ := hs
    simp [h, hs, hr, hb]
  · simp [h.bitIdx, hs, hr, hb]
  · simp [h, State.not_acceptsStart_of_busy hb, hr, hb, BitVec.toNat_add]

/-! The source's accumulator, one iteration at a time (R143). -/

@[simp] theorem acc_zero (F : List Byte) : acc F 0 = crcInit := rfl

theorem acc_at_byte (F : List Byte) (q : Nat) : acc F (8 * q) = crc8 (F.take q) := by
  simp [acc]

/-- Within byte q, and at its end too: the byte is XORed into the fold of the bytes before it, then r bit steps are made. -/
theorem acc_within_byte {F : List Byte} {q r : Nat} (hq : q < F.length) (hr : 0 < r) (hr8 : r ≤ 8) :
    acc F (8 * q + r) = crc8Steps r (crc8 (F.take q) ^^^ F.getD q 0#8) := by
  rcases Nat.lt_or_eq_of_le hr8 with hlt | rfl
  · simp only [acc, show (8 * q + r) % 8 = r by omega, show (8 * q + r) / 8 = q by omega, Nat.ne_of_gt hr, if_false]
  · rw [← Nat.mul_succ, acc_at_byte, Nat.succ_eq_add_one, List.take_add_one, crc8, crc8From_append, List.getElem?_eq_getElem hq,
      List.getD_eq_getElem _ _ hq]
    rfl

/-- One more iteration of step 3b: the byte is XORed in before its first bit step. -/
theorem acc_succ {F : List Byte} {q r : Nat} (hq : q < F.length) (hr : r < 8) :
    acc F (8 * q + r + 1) = crc8Step (if r = 0 then acc F (8 * q + r) ^^^ F.getD q 0#8 else acc F (8 * q + r)) := by
  rw [Nat.add_assoc, acc_within_byte hq (Nat.succ_pos r) hr, crc8Steps_succ_last]
  by_cases h0 : r = 0
  · simp [h0, acc_at_byte]
  · rw [if_neg h0, acc_within_byte hq (Nat.pos_of_ne_zero h0) (Nat.le_of_lt hr)]

/-! The invariants of R31 along the edges. -/

/-- (I1) to (I3) at a bit step. -/
theorem State.bitStep_inv {s : State} (hi : s.inv) (hb : s.busy = true) : s.bitStep.inv := by
  obtain ⟨hbyte, -, hdone⟩ := hi
  have hle : s.byteIdx ≤ 6#3 := hbyte hb
  have hd : s.done = false := by simpa [hb] using hdone
  rcases s.bitStep_cases with ⟨-, h, hb', hd'⟩ | ⟨-, hne, h, hb', hd'⟩ | ⟨⟨-, hbit⟩, h, hb', hd'⟩
  · simp [inv, h, hb', hd', hb, hd, hle]
  · have : s.byteIdx + 1#3 ≤ 6#3 := by bv_omega
    simp [inv, h, hb', hd', hb, hd, this]
  · simp [inv, h, hb', hbit]

/-- A bit step that is not the final one is one more iteration. -/
theorem State.bitStep_progress {s : State} (hi : s.inv) (hb : s.busy = true) (hf : ¬ s.atFinalBit) :
    s.bitStep.progress = s.progress + 1 := by
  have hle : s.byteIdx ≤ 6#3 := hi.1 hb
  simp only [progress, bitStep_bitIdx]
  rcases s.bitStep_cases with ⟨hbit, h, -⟩ | ⟨hbit, -, h, -⟩ | ⟨hf', -⟩
  · rw [h]; bv_omega
  · rw [h]; bv_omega
  · exact absurd hf' hf

/-- (I5) at a bit step: the byte the multiplexer selects is the one the source folds in. -/
theorem State.bitStep_folds {s : State} (hi : s.inv) (hf : s.folds) (hb : s.busy = true) : s.bitStep.folds := by
  intro hb'
  have hq : s.byteIdx.toNat < s.frame.length := by
    have hle : s.byteIdx ≤ 6#3 := hi.1 hb
    simp only [frame, List.length_cons, List.length_nil]
    bv_omega
  have hframe : s.bitStep.frame = s.frame := frame_congr (by simp) (by simp) (by simp) (by simp)
  have hzero : s.bitIdx.toNat = 0 ↔ s.bitIdx = 0#3 := by simp [← BitVec.toNat_inj]
  calc s.bitStep.crc
    _ = crc8Step s.stepInput := s.bitStep_crc
    _ = acc s.frame (s.progress + 1) := by
      rw [progress, acc_succ hq s.bitIdx.isLt, frame_getD, ← progress, ← hf hb]
      simp only [stepInput, hzero]
    _ = acc s.bitStep.frame s.bitStep.progress := by
      rw [hframe, bitStep_progress hi hb (s.bitStep_busy_iff.1 hb').2]

/-- Every edge keeps (I1) to (I3). -/
theorem nextState_inv {s : State} (hi : s.inv) : (nextState s).inv := by
  rcases nextState_sequencer_cases s with ⟨-, h⟩ | ⟨-, h⟩ | ⟨-, -, -, h⟩ | ⟨-, hb, h⟩
  · simp [h, State.inv]
  · simp [h, State.inv]
  · simpa only [State.inv, h.busy, h.done, h.byteIdx, h.bitIdx] using hi
  · rw [h]; exact State.bitStep_inv hi hb

/-- Every edge keeps (I5), given (I1) to (I3). -/
theorem nextState_folds {s : State} (hi : s.inv) (hf : s.folds) : (nextState s).folds := by
  rcases nextState_sequencer_cases s with ⟨-, h⟩ | ⟨-, h⟩ | ⟨-, hb, -, h⟩ | ⟨-, hb, h⟩
  · simp [h, State.folds]
  · simp [h, State.folds, State.progress]
  · simp [State.folds, h.busy, hb]
  · rw [h]; exact State.bitStep_folds hi hf hb

/-- (I4) at one edge: an edge of a computation that leaves it in progress changes no field register. -/
theorem nextState_sameFields {s : State} (hs : s.acceptsStart ∨ s.busy = true) (hb' : (nextState s).busy = true) :
    s.SameFields (nextState s) := by
  rcases nextState_sequencer_cases s with ⟨-, h⟩ | ⟨-, h⟩ | ⟨-, hb, hns, -⟩ | ⟨-, -, h⟩
  · simp [h] at hb'
  · constructor <;> simp [h]
  · simp [hns, hb] at hs
  · constructor <;> simp [h]

/-! Runs. -/

/-- A run leads to `afterEdges` and nowhere else. -/
theorem runsTo_iff {n : Nat} {s t : State} : runsTo n s t ↔ t = afterEdges n s := by
  rw [runsTo, run_eq_afterEdges]
  exact ⟨fun h => by injection h with h; exact h.symm, fun h => by rw [h]⟩

/-- What holds of a state and is kept by every edge holds after any number of edges. -/
theorem afterEdges_invariant {P : State → Prop} (hstep : ∀ s, P s → P (nextState s)) (n : Nat) {s : State} (h : P s) :
    P (afterEdges n s) := by
  induction n generalizing s with
  | zero => exact h
  | succ n ih => exact ih (hstep s h)

/-- (I4): from the edge that accepts a START, and as long as BUSY stays 1, the field registers keep their values. -/
theorem afterEdges_sameFields {u : State} (hs : u.acceptsStart) (j : Nat)
    (hb : ∀ k, 0 < k → k ≤ j → (afterEdges k u).busy = true) : u.SameFields (afterEdges j u) := by
  induction j with
  | zero => exact ⟨rfl, rfl, rfl, rfl⟩
  | succ j ih =>
    have hprev : u.SameFields (afterEdges j u) := ih fun k hk hkj => hb k hk (Nat.le_succ_of_le hkj)
    have hcomputing : (afterEdges j u).acceptsStart ∨ (afterEdges j u).busy = true := by
      rcases Nat.eq_zero_or_pos j with rfl | hj
      · exact .inl hs
      · exact .inr (hb j hj (Nat.le_succ j))
    have hlast := nextState_sameFields hcomputing (by simpa [afterEdges_succ] using hb (j + 1) (Nat.succ_pos j) le_rfl)
    rw [afterEdges_succ]
    exact ⟨hlast.cmd.trans hprev.cmd, hlast.addr.trans hprev.addr, hlast.data.trans hprev.data,
      hlast.devid.trans hprev.devid⟩

/-- RESET_STATE, whatever is presented next, meets (I1) to (I3) and (I5). -/
theorem reset_invariants (ps : List PortInput) : (State.reset.withInputs ps).inv ∧ (State.reset.withInputs ps).folds := by
  constructor
  · simp [State.inv, State.reset]
  · simp [State.folds, State.reset]

/-- Settles O28: (I1) to (I3) and (I5) by induction on the edges, (I4) by induction on the edges since the START. -/
theorem reachableStatesMeetTheInvariants : Obligations.ReachableStatesMeetTheInvariants := by
  intro ps n
  have hinv := afterEdges_invariant (P := fun s => s.inv ∧ s.folds)
    (fun s ⟨hi, hf⟩ => ⟨nextState_inv hi, nextState_folds hi hf⟩) n (reset_invariants ps)
  refine ⟨_, runsTo_iff.2 rfl, hinv.1, hinv.2, fun m u hm hu hs hbusy => ?_⟩
  obtain ⟨j, rfl⟩ := Nat.exists_eq_add_of_le (Nat.le_of_lt hm)
  have hlater (k : Nat) : afterEdges (m + k) (State.reset.withInputs ps) = afterEdges k u := by
    rw [afterEdges_add, ← runsTo_iff.1 hu]
  have hkept : u.SameFields (afterEdges j u) := afterEdges_sameFields hs j fun k hk hkj =>
    hbusy (m + k) _ (by omega) (by omega) (runsTo_iff.2 (hlater k).symm)
  rw [hlater]
  exact ⟨hkept.cmd, hkept.addr, hkept.data, hkept.devid⟩

end Sys2Proof.Machine

/-! PROOFS. Command words and the command-sequence language: what the decoder reads, the assembler's expansions, the source's
algorithm on unbounded integers, and runs of the block over the inputs a program presents, a whole computation included. -/

namespace Sys2Proof.Machine

/-! The decoder. -/

/-- An 8-bit operand is read back from the `wdata` the assembler emits for it. -/
@[simp] theorem imm8Of_setWidth (v : Byte) : imm8Of (v.setWidth 16) = v := by
  apply BitVec.eq_of_getLsbD_eq
  intro i hi
  simp [imm8Of, hi, show i < 16 by omega]

/-- The decoder reads an instruction back from its word. -/
@[simp] theorem decode_encode (i : Instr) : decode (encode i) = i := by
  cases i <;> simp [encode, Instr.opcode, Instr.wdata]

/-- Accept or drop, in the form R150 prints it. -/
theorem State.acceptOrDrop_eq_ite (s e : State) :
    s.acceptOrDrop e = if s.busy = false then e else { s with err := true } := by
  cases hb : s.busy <;> simp [hb, setErr]

/-- The command that `op` and `wdata` select does what R150's part (B) prints for them. -/
theorem effect_decodeFields (op : Idx3) (wdata : Half) (s : State) :
    effect (decodeFields op wdata) s = printedB op wdata s s := by
  have hdrop := s.acceptOrDrop_eq_ite
  rcases opcode_cases op with rfl | rfl | rfl | rfl | rfl | rfl | rfl | rfl
  exacts [rfl, hdrop _, hdrop _, hdrop _, hdrop _, hdrop _, rfl, rfl]

/-- Settles O3: the decoder splits the word into `op` and `wdata`, and `effect_decodeFields` goes through the eight opcodes. -/
theorem everyWordRunsAsItsOpcode : Obligations.EveryWordRunsAsItsOpcode := fun w s => by
  rw [exec_eq_effect, decode, effect_decodeFields]
  rfl

/-! The assembler (R77, R78). -/

/-- A line whose operands fit is assembled to its inputs. -/
theorem assembleLine_of_wellFormed {l : AsmLine} (h : l.wellFormed = true) : assembleLine l = .ok (AsmLine.inputs l) := by
  simp [assembleLine, h]

/-- A program whose operands fit is assembled to its lines' inputs, one after another. -/
theorem assembleLines_of_wellFormed {ls : List AsmLine} (h : ∀ l ∈ ls, l.wellFormed = true) :
    assembleLines ls = .ok (ls.flatMap AsmLine.inputs) := by
  induction ls with
  | nil => rfl
  | cons l ls ih =>
    rw [List.forall_mem_cons] at h
    simp [assembleLines, assembleLine_of_wellFormed h.1, ih h.2]

/-! The source's algorithm on unbounded integers (R132 to R134). -/

/-- The source's step masks its result, so it reads the low byte only. -/
theorem srcStep_eq (n : Nat) : srcStep n = (crc8Step (BitVec.ofNat 8 n)).toNat := by
  have hbit : n &&& 0x80 ≠ 0 ↔ (BitVec.ofNat 8 n).getLsbD 7 = true := by
    rw [show 0x80 = 2 ^ 7 from rfl, Nat.and_two_pow, BitVec.getLsbD_ofNat]
    cases n.testBit 7 <;> simp
  have hmask (m : Nat) : m &&& 0xFF = m % 2 ^ 8 := Nat.and_two_pow_sub_one_eq_mod m 8
  have hshift : (BitVec.ofNat 8 n <<< 1).toNat = (n <<< 1) % 2 ^ 8 := by
    simp [Nat.shiftLeft_eq]
  simp only [srcStep, crc8Step, hbit, hmask]
  split
  · rw [Nat.xor_mod_two_pow, BitVec.toNat_xor, hshift]; rfl
  · rw [hshift]

/-- After its first step the source works on bytes, so any number of its steps, one at least, reads the low byte only. -/
theorem srcSteps_succ_eq (k n : Nat) : srcSteps (k + 1) n = (crc8Steps (k + 1) (BitVec.ofNat 8 n)).toNat := by
  induction k generalizing n with
  | zero => exact srcStep_eq n
  | succ k ih =>
    rw [srcSteps, ih, srcStep_eq, BitVec.ofNat_toNat, BitVec.setWidth_eq]
    rfl

/-- The source's fold over integers is the fold over their low bytes. -/
theorem srcFrom_eq (crc : Byte) (bs : List Nat) : srcFrom crc.toNat bs = (crc8From crc (bs.map (BitVec.ofNat 8))).toNat := by
  induction bs generalizing crc with
  | nil => rfl
  | cons b bs ih =>
    have hxor : BitVec.ofNat 8 (crc.toNat ^^^ b) = crc ^^^ BitVec.ofNat 8 b := by
      simp [BitVec.ofNat_xor]
    rw [srcFrom, srcSteps_succ_eq, hxor, ih]
    rfl

/-- The source's mask for the low byte of a field. -/
theorem ofNat_and_mask (n : Nat) : BitVec.ofNat 8 (n &&& 0xFF) = lowByte (BitVec.ofNat 16 n) := by
  apply BitVec.eq_of_toNat_eq
  rw [show n &&& 0xFF = n % 2 ^ 8 from Nat.and_two_pow_sub_one_eq_mod n 8]
  simp [lowByte]

/-- The source's shift for the high byte of a field. -/
theorem lowByte_ofNat_shift (n : Nat) : lowByte (BitVec.ofNat 16 (n >>> 8)) = highByte (BitVec.ofNat 16 n) := by
  apply BitVec.eq_of_toNat_eq
  simp [lowByte, highByte, Nat.shiftRight_eq_div_pow]
  omega

/-- `compute` of the masked operands is the source's `compute` of the integers. -/
theorem toNat_compute_ofNat (c a d v : Nat) :
    (compute (BitVec.ofNat 8 c) (BitVec.ofNat 16 a) (BitVec.ofNat 16 d) (BitVec.ofNat 16 v)).toNat = srcCompute c a d v := by
  rw [srcCompute, show (0 : Nat) = crcInit.toNat from rfl, srcFrom_eq]
  simp only [List.map, ofNat_and_mask, lowByte_ofNat_shift]
  rfl

/-! Runs over listed inputs. -/

/-- n edges sample the first n inputs. -/
@[simp] theorem afterEdges_inputs (n : Nat) (s : State) : (afterEdges n s).inputs = s.inputs.drop n := by
  induction n generalizing s with
  | zero => rfl
  | succ n ih => rw [afterEdges, ih, nextState_inputs, List.drop_tail]

/-- No edge resets while the inputs sampled come from a list that does not. -/
theorem port_afterEdges_rst {s : State} {ps rest : List PortInput} (hin : s.inputs = ps ++ rest) (hr : noReset ps) {k : Nat}
    (hk : k < ps.length) : (afterEdges k s).port.rst = false := by
  have h : (afterEdges k s).inputs = ps[k] :: (ps ++ rest).drop (k + 1) := by
    rw [afterEdges_inputs, hin, List.drop_eq_getElem_cons (by simp; omega), List.getElem_append_left hk]
  rw [State.port_cons h]
  exact hr _ (List.getElem_mem hk)

@[simp] theorem State.withInputs_self (s : State) : s.withInputs s.inputs = s := rfl

@[simp] theorem present_rst (i : Instr) : (present i).rst = false := rfl

@[simp] theorem present_instr (i : Instr) : (present i).instr = i := by
  simp [present, PortInput.instr]

theorem State.acceptOrDrop_withInputs (s e : State) (ps : List PortInput) :
    (s.withInputs ps).acceptOrDrop (e.withInputs ps) = (s.acceptOrDrop e).withInputs ps := by
  cases hb : s.busy
  · simp [hb]
  · simp [hb, setErr, withInputs]

/-- A command neither reads nor writes the inputs still to come. -/
theorem effect_withInputs (i : Instr) (s : State) (ps : List PortInput) :
    effect i (s.withInputs ps) = (effect i s).withInputs ps := by
  cases i with
  | nop | reserved6 | reserved7 => rfl
  | wrCmd v | wrAddr v | wrData v | wrDevid v | start => rw [effect, effect, ← s.acceptOrDrop_withInputs]; rfl

/-- In an idle state an edge runs the command presented and does nothing else. -/
theorem nextState_present_idle {s : State} (hb : s.busy = false) (i : Instr) (ps : List PortInput) :
    nextState (s.withInputs (present i :: ps)) = (effect i s).withInputs ps := by
  have hi : decode (present i).word = i := present_instr i
  simp [nextState, hb, hi, effect_withInputs]

/-- The state with the four field registers loaded. -/
def State.setFields (s : State) (c : Byte) (a d v : Half) : State :=
  (((s.setCmd c).setAddr a).setData d).setDevid v

/-- The inputs that present the four field writes. -/
def writeInputs (c : Byte) (a d v : Half) : List PortInput :=
  [present (.wrCmd c), present (.wrAddr a), present (.wrData d), present (.wrDevid v)]

/-- The four field writes, issued in an idle state, load the four fields and leave the state idle. -/
theorem afterEdges_writes {s : State} (hb : s.busy = false) {c : Byte} {a d v : Half} {ps : List PortInput}
    (hin : s.inputs = writeInputs c a d v ++ ps) : afterEdges 4 s = (s.setFields c a d v).withInputs ps := by
  conv_lhs => rw [← s.withInputs_self, hin]
  simp [writeInputs, afterEdges, nextState_present_idle, hb, effect, State.setFields]

/-! A computation, edge by edge (R143, R144). -/

/-- R143: `t` is a state n bit steps into a computation over the fields of `s`. -/
structure State.Computing (s : State) (n : Nat) (t : State) : Prop where
  busy : t.busy = true
  inv : t.inv
  folds : t.folds
  progress : t.progress = n
  fields : s.SameFields t

/-- R144: `t` is a state in which the computation over the fields of `s` has ended. -/
structure State.Completed (s t : State) : Prop where
  busy : t.busy = false
  done : t.done = true
  byteIdx : t.byteIdx = 0#3
  bitIdx : t.bitIdx = 0#3
  crc : t.crc = crc8 s.frame
  fields : s.SameFields t

/-- The final bit step comes after 55 others. -/
theorem State.atFinalBit_iff_progress (s : State) : s.atFinalBit ↔ s.progress = 55 := by
  rw [atFinalBit, progress]
  bv_omega

/-- An accepted START begins a computation. -/
theorem State.acceptsStart.computing {s : State} (hs : s.acceptsStart) : s.Computing 0 (nextState s) := by
  obtain ⟨hr, hb, hi⟩ := hs
  have h : nextState s = s.consume.startFold := by
    simp [nextState, hr, hb, show decode s.port.word = .start from hi, effect]
  rw [h]
  refine ⟨rfl, ?_, ?_, rfl, rfl, rfl, rfl, rfl⟩
  · simp [inv]
  · simp [folds, progress]

/-- An edge of a busy state without reset makes a bit step; it sets ERR unless the command is NOP. -/
theorem nextState_of_busy {s : State} (hb : s.busy = true) (hr : s.port.rst = false) :
    nextState s = { s.bitStep with err := s.err || decide (s.port.instr ≠ .nop), inputs := s.inputs.tail } := by
  rcases nextState_cases s with ⟨hr', -⟩ | ⟨-, hb', -⟩ | ⟨-, -, h⟩
  · simp [hr] at hr'
  · simp [hb] at hb'
  · exact h

/-- An edge without reset makes the next bit step of a computation. -/
theorem State.Computing.succ {s t : State} {n : Nat} (h : s.Computing n t) (hr : t.port.rst = false) (hn : n < 55) :
    s.Computing (n + 1) (nextState t) := by
  have hf : ¬ t.atFinalBit := by rw [t.atFinalBit_iff_progress, h.progress]; omega
  have hstep := nextState_of_busy h.busy hr
  have hb : (nextState t).busy = true := by rw [hstep]; exact t.bitStep_busy_iff.2 ⟨h.busy, hf⟩
  have hfields := nextState_sameFields (.inr h.busy) hb
  refine ⟨hb, nextState_inv h.inv, nextState_folds h.inv h.folds, ?_, hfields.cmd.trans h.fields.cmd,
    hfields.addr.trans h.fields.addr, hfields.data.trans h.fields.data, hfields.devid.trans h.fields.devid⟩
  rw [hstep, ← h.progress]
  exact State.bitStep_progress h.inv h.busy hf

/-- The 56th bit step ends a computation, with the CRC of the frame. -/
theorem State.Computing.complete {s t : State} (h : s.Computing 55 t) (hr : t.port.rst = false) :
    s.Completed (nextState t) := by
  have hf : t.atFinalBit := t.atFinalBit_iff_progress.2 h.progress
  have hframe : t.frame = s.frame := frame_congr h.fields.cmd h.fields.addr h.fields.data h.fields.devid
  have hcrc : t.bitStep.crc = crc8 s.frame := by
    calc t.bitStep.crc
      _ = crc8Step t.crc := by simp [stepInput, hf.2]
      _ = crc8Step (acc s.frame 55) := by rw [h.folds h.busy, h.progress, hframe]
      _ = acc s.frame 56 := (acc_succ (F := s.frame) (q := 6) (r := 7) (Nat.lt_succ_self 6) (Nat.lt_succ_self 7)).symm
      _ = crc8 s.frame := acc_at_byte s.frame 7
  rw [nextState_of_busy h.busy hr]
  rcases t.bitStep_cases with ⟨hbit, -⟩ | ⟨-, hbyte, -⟩ | ⟨-, hbyte, hb, hd⟩
  · exact absurd hf.2 hbit
  · exact absurd hf.1 hbyte
  · refine ⟨hb, hd, hbyte, by simp [hf.2], hcrc, ?_⟩
    constructor <;> simp [h.fields.cmd, h.fields.addr, h.fields.data, h.fields.devid]

/-- R143: k edges after the edge of an accepted START, k up to 55, k bit steps are made, whatever commands came between. -/
theorem State.acceptsStart.computing_afterEdges {s : State} (hs : s.acceptsStart) {ps rest : List PortInput}
    (hin : s.inputs = ps ++ rest) (hr : noReset ps) {k : Nat} (hk : k < ps.length) (hk55 : k ≤ 55) :
    s.Computing k (afterEdges (k + 1) s) := by
  induction k with
  | zero => exact hs.computing
  | succ k ih =>
    rw [afterEdges_succ]
    exact (ih (by omega) (by omega)).succ (port_afterEdges_rst hin hr hk) (by omega)

/-- R144: 56 edges after the edge of an accepted START the computation has ended, whatever commands came between. -/
theorem State.acceptsStart.completed_afterEdges {s : State} (hs : s.acceptsStart) {ps rest : List PortInput}
    (hin : s.inputs = ps ++ rest) (hr : noReset ps) (hlen : 56 < ps.length) : s.Completed (afterEdges 57 s) := by
  rw [afterEdges_succ]
  exact (hs.computing_afterEdges hin hr (by omega) le_rfl).complete (port_afterEdges_rst hin hr hlen)

/-- The four field writes, START and 56 NOPs, issued in an idle state, compute the CRC of the fields written. -/
theorem afterEdges_compute {s : State} (hb : s.busy = false) {c : Byte} {a d v : Half} {rest : List PortInput}
    (hin : s.inputs = writeInputs c a d v ++ (present .start :: waitInputs 56 ++ rest)) :
    (afterEdges 61 s).done = true ∧ (afterEdges 61 s).busy = false ∧ (afterEdges 61 s).crc = compute c a d v := by
  have hs : ((s.setFields c a d v).withInputs (present .start :: waitInputs 56 ++ rest)).acceptsStart :=
    ⟨rfl, hb, present_instr .start⟩
  have hrst : noReset (present .start :: waitInputs 56) := by simp [noReset, waitInputs]
  have h := hs.completed_afterEdges rfl hrst (by simp [waitInputs])
  rw [show 61 = 4 + 57 from rfl, afterEdges_add, afterEdges_writes hb hin]
  exact ⟨h.done, h.busy, h.crc⟩

/-- Settles O46: the expansions are the assembler's; the run is the four writes (`afterEdges_writes`) and then R144
(`State.acceptsStart.completed_afterEdges`), and the 8-bit and 16-bit fold is the source's (`toNat_compute_ofNat`). -/
theorem pseudoInstructionsExpand : Obligations.PseudoInstructionsExpand := by
  refine ⟨fun n => assembleLine_of_wellFormed rfl, assembleLine_of_wellFormed rfl, fun c a d v hc ha hd hv => ?_⟩
  have hlines : ∀ l ∈ [AsmLine.wrCmd c, .wrAddr a, .wrData d, .wrDevid v, .start, .wait 56], l.wellFormed = true := by
    simp [AsmLine.wellFormed, imm8Fits, imm16Fits, hc, ha, hd, hv]
  have hcompute : (AsmLine.compute c a d v).wellFormed = true := by
    simp [AsmLine.wellFormed, imm8Fits, imm16Fits, hc, ha, hd, hv]
  refine ⟨_, assembleLine_of_wellFormed hcompute, assembleLines_of_wellFormed hlines, rfl,
    fun s rest hb hin => ⟨_, runsTo_iff.2 rfl, ?_⟩⟩
  obtain ⟨hdone, hbusy, hcrc⟩ := afterEdges_compute hb hin
  refine ⟨hdone, hbusy, ?_, ?_⟩
  · rw [State.crcOut, hcrc, toNat_compute_ofNat]
  · rw [afterEdges_inputs, hin]
    rfl

end Sys2Proof.Machine

/-! PROOFS. The frame builder: the two bytes of a 16-bit field, the byte multiplexer FRAME, and the four field writes, which are
the only commands that change a field register. -/

namespace Sys2Proof.Machine

/-! The two bytes of a 16-bit field (spec/20_memory.md R53). -/

section Bytes

variable (v : Half)

theorem lowByte_eq_setWidth : lowByte v = v.setWidth 8 := rfl

theorem highByte_eq_setWidth : highByte v = (v >>> 8).setWidth 8 := rfl

theorem highByte_append_lowByte : highByte v ++ lowByte v = v := BitVec.extractLsb'_append_extractLsb'

/-- Rotating by eight bits swaps the bytes. -/
@[simp] theorem lowByte_rotateLeft : lowByte (v.rotateLeft 8) = highByte v := by
  apply BitVec.eq_of_getLsbD_eq
  intro i hi
  simp [lowByte, highByte, hi, show 8 + i < 16 by omega]

@[simp] theorem highByte_rotateLeft : highByte (v.rotateLeft 8) = lowByte v := by
  apply BitVec.eq_of_getLsbD_eq
  intro i hi
  simp [lowByte, highByte, hi, show 8 + i < 16 by omega, BitVec.getLsbD_eq_getElem (show i < 16 by omega)]

end Bytes

/-- A field is known from its two bytes. -/
theorem eq_of_bytes_eq {v w : Half} (hlow : lowByte v = lowByte w) (hhigh : highByte v = highByte w) : v = w := by
  rw [← highByte_append_lowByte v, ← highByte_append_lowByte w, hlow, hhigh]

/-! The multiplexer, index by index (R105). -/

section Frame

variable (s : State)

@[simp] theorem State.frameByte_one : s.frameByte 1#3 = lowByte s.addr := rfl
@[simp] theorem State.frameByte_two : s.frameByte 2#3 = highByte s.addr := rfl
@[simp] theorem State.frameByte_three : s.frameByte 3#3 = lowByte s.data := rfl
@[simp] theorem State.frameByte_four : s.frameByte 4#3 = highByte s.data := rfl
@[simp] theorem State.frameByte_five : s.frameByte 5#3 = lowByte s.devid := rfl
@[simp] theorem State.frameByte_six : s.frameByte 6#3 = highByte s.devid := rfl
@[simp] theorem State.frameByte_seven : s.frameByte 7#3 = 0x00#8 := rfl

end Frame

/-- R108 (c): the frame determines the four fields. -/
theorem State.sameFields_of_frame_eq {s t : State} (h : s.frame = t.frame) : t.SameFields s := by
  obtain ⟨hcmd, haddr, haddr', hdata, hdata', hdevid, hdevid'⟩ : s.cmd = t.cmd ∧
      lowByte s.addr = lowByte t.addr ∧ highByte s.addr = highByte t.addr ∧
      lowByte s.data = lowByte t.data ∧ highByte s.data = highByte t.data ∧
      lowByte s.devid = lowByte t.devid ∧ highByte s.devid = highByte t.devid := by
    simpa [frame] using h
  exact ⟨hcmd, eq_of_bytes_eq haddr haddr', eq_of_bytes_eq hdata hdata', eq_of_bytes_eq hdevid hdevid'⟩

/-- Settles O31: the multiplexer selects the field bytes, in the form `lowByte_eq_setWidth` and `highByte_eq_setWidth` give them,
and the frame lists its first seven values by definition. -/
theorem frameMultiplexerTable : Obligations.FrameMultiplexerTable := fun s =>
  ⟨s.frameByte_zero, lowByte_eq_setWidth s.addr, highByte_eq_setWidth s.addr, lowByte_eq_setWidth s.data,
    highByte_eq_setWidth s.data, lowByte_eq_setWidth s.devid, highByte_eq_setWidth s.devid, s.frameByte_seven, rfl, rfl⟩

/-- Settles O32: at each of the eight indices the rotated field shows its other byte (`lowByte_rotateLeft`,
`highByte_rotateLeft`), and the other bytes are the same; the frame's two bytes of a field determine it. -/
theorem frameSwapsAndIsInjective : Obligations.FrameSwapsAndIsInjective := by
  refine ⟨fun s i => ?_, fun s t h => ?_⟩
  · rcases opcode_cases i with rfl | rfl | rfl | rfl | rfl | rfl | rfl | rfl <;> simp
  · obtain ⟨hcmd, haddr, hdata, hdevid⟩ := State.sameFields_of_frame_eq h
    exact ⟨hcmd, haddr, hdata, hdevid⟩

/-! The field writes (R100 to R104): accepted while idle, dropped while busy. -/

section FieldWrites

variable {s : State}

theorem exec_wrCmd_of_idle (hb : s.busy = false) (v : Byte) : exec (.wrCmd v) s = .next (s.setCmd v) := by
  rw [exec_eq_effect, effect, s.acceptOrDrop_idle _ hb]

theorem exec_wrAddr_of_idle (hb : s.busy = false) (v : Half) : exec (.wrAddr v) s = .next (s.setAddr v) := by
  rw [exec_eq_effect, effect, s.acceptOrDrop_idle _ hb]

theorem exec_wrData_of_idle (hb : s.busy = false) (v : Half) : exec (.wrData v) s = .next (s.setData v) := by
  rw [exec_eq_effect, effect, s.acceptOrDrop_idle _ hb]

theorem exec_wrDevid_of_idle (hb : s.busy = false) (v : Half) : exec (.wrDevid v) s = .next (s.setDevid v) := by
  rw [exec_eq_effect, effect, s.acceptOrDrop_idle _ hb]

/-- While busy every command but NOP sets ERR and does nothing else. -/
theorem exec_of_busy (hb : s.busy = true) {i : Instr} (hi : i ≠ .nop) : exec i s = .next s.setErr := by
  rw [exec_eq_effect, effect_busy hb, if_neg hi]

end FieldWrites

/-- Settles O11: the word is `commandWord 2 w`, and the field's two bytes stand at indices 1 and 2. -/
theorem wrAddrWritesTheAddressField : Obligations.WrAddrWritesTheAddressField := fun _ w =>
  ⟨decode_commandWord 2#3 w, fun hb => exec_wrAddr_of_idle hb w, fun hb => exec_of_busy hb nofun,
    lowByte_eq_setWidth w, highByte_eq_setWidth w⟩

/-- Settles O12: the word is `commandWord 3 w`, and the field's two bytes stand at indices 3 and 4. -/
theorem wrDataWritesTheDataField : Obligations.WrDataWritesTheDataField := fun _ w =>
  ⟨decode_commandWord 3#3 w, fun hb => exec_wrData_of_idle hb w, fun hb => exec_of_busy hb nofun,
    lowByte_eq_setWidth w, highByte_eq_setWidth w⟩

/-- Settles O13: the word is `commandWord 4 w`, and the field's two bytes stand at indices 5 and 6. -/
theorem wrDevidWritesTheDeviceIdField : Obligations.WrDevidWritesTheDeviceIdField := fun _ w =>
  ⟨decode_commandWord 4#3 w, fun hb => exec_wrDevid_of_idle hb w, fun hb => exec_of_busy hb nofun,
    lowByte_eq_setWidth w, highByte_eq_setWidth w⟩

/-- Settles O16: while idle each write is the one update that its `exec` lemma names; while busy all four are dropped alike. -/
theorem fieldWriteChangesExactlyOneField : Obligations.FieldWriteChangesExactlyOneField := by
  rintro s i c h hi
  refine ⟨fun hb => ?_, fun hb => exec_of_busy hb (by rcases hi with rfl | rfl | rfl | rfl <;> nofun)⟩
  rcases hi with rfl | rfl | rfl | rfl
  · exact ⟨_, exec_wrCmd_of_idle hb c, by simp⟩
  · exact ⟨_, exec_wrAddr_of_idle hb h, by simp⟩
  · exact ⟨_, exec_wrData_of_idle hb h, by simp⟩
  · exact ⟨_, exec_wrDevid_of_idle hb h, by simp⟩

/-- The source's `compute` reads the low byte of the `command` only (spec/90_conflicts.md C1). -/
theorem srcCompute_mod (c a d v : Nat) : srcCompute (c % 256) a d v = srcCompute c a d v := by
  have hc : BitVec.ofNat 8 (c % 256) = BitVec.ofNat 8 c := BitVec.eq_of_toNat_eq (by simp)
  rw [← toNat_compute_ofNat, hc, toNat_compute_ofNat]

/-- Settles O10: the word is `commandWord 1 w`; at the final bit step the edge is that of any command that is not NOP
(`nextState_of_busy`), so the write is dropped; the source's result is that of `compute` (`toNat_compute_ofNat`). -/
theorem wrCmdWritesTheCommandField : Obligations.WrCmdWritesTheCommandField := by
  refine ⟨fun s w ps => ⟨decode_commandWord 1#3 w, fun v hb => exec_wrCmd_of_idle hb v,
    fun v hb => exec_of_busy hb nofun, fun v hbyte => ?_, fun hb => exec_wrCmd_of_idle hb s.cmd, fun hb hf => ?_⟩,
    fun c a d v => (srcCompute_mod c a d v).symm⟩
  · rw [State.fbyte, hbyte, State.frameByte_zero]
  · have hinstr : PortInput.instr ⟨false, 0b001#3, w⟩ = .wrCmd (imm8Of w) := decode_commandWord 1#3 w
    have hbusy : s.bitStep.busy = false := by simpa [hf] using s.bitStep_busy_iff
    have hdone : s.bitStep.done = true := s.bitStep_done_iff.2 (.inl hf)
    refine ⟨_, step_eq_nextState _, ?_⟩
    rw [nextState_of_busy (s := s.withInputs (⟨false, 0b001#3, w⟩ :: ps)) hb rfl]
    simp [hinstr, hbusy, hdone]

/-- Settles O23: a reset clears the fields; in an idle state the command decides which field is written, if any; a bit step writes
none. -/
theorem fieldsChangeOnlyByAcceptedWriteOrReset : Obligations.FieldsChangeOnlyByAcceptedWriteOrReset := by
  refine fun s => ⟨nextState s, step_eq_nextState s, ?_⟩
  rcases nextState_cases s with ⟨hr, h⟩ | ⟨hr, hb, h⟩ | ⟨hr, hb, h⟩
  · simp [h, hr]
  · rw [h, show decode s.port.word = s.port.instr from rfl]
    cases s.port.instr <;> simp [effect, hr, hb]
  · simp [h, hr, hb]

end Sys2Proof.Machine

/-! PROOFS. The CRC engine: CRC8_STEP and the fold, the commands NOP and START, the bit step, the edge as R150 prints it, and
the running and the final CRC of a computation. -/

namespace Sys2Proof.Machine

/-! CRC8_STEP (R132). -/

/-- The shift, as R132 prints it. -/
theorem shiftLeft_one_eq_append (t : Byte) : t <<< 1 = t.extractLsb' 0 7 ++ 0#1 := by
  rw [BitVec.shiftLeft_eq_concat_of_lt (show 1 < 8 by decide), BitVec.cast_eq]

/-- The bit that the shift loses is bit 0 of the result: the shift leaves 0 there, and POLY has a 1. -/
theorem crc8Step_bit_zero (t : Byte) : (crc8Step t).getLsbD 0 = t.getLsbD 7 := by
  rw [crc8Step_eq, BitVec.getLsbD_xor, BitVec.getLsbD_shiftLeft]
  cases t.getLsbD 7 <;> simp [poly]

/-- Only 0x00 steps to 0x00: bit 0 of the result shows that no bit was lost, so the shift alone gave 0x00. -/
theorem eq_zero_of_crc8Step_eq_zero {t : Byte} (h : crc8Step t = 0x00#8) : t = 0x00#8 := by
  have htop : t.getLsbD 7 = false := by rw [← crc8Step_bit_zero, h]; rfl
  have hshift : t <<< 1 = 0x00#8 := by simpa only [crc8Step, htop, Bool.false_eq_true, if_false] using h
  apply BitVec.eq_of_getLsbD_eq
  intro i hi
  rcases Nat.lt_or_eq_of_le (Nat.le_of_lt_succ hi) with hlt | rfl
  · simpa [BitVec.getLsbD_eq_getElem hi, Nat.succ_lt_succ hlt] using congrArg (BitVec.getLsbD · (i + 1)) hshift
  · exact htop

/-- CRC8_STEP is linear (`crc8Step_xor`) with kernel 0x00. -/
theorem crc8Step_injective : Function.Injective crc8Step := by
  intro a b h
  have hxor : crc8Step (a ^^^ b) = 0x00#8 := by rw [crc8Step_xor, h, BitVec.xor_self]
  exact BitVec.xor_eq_zero_iff.1 (eq_zero_of_crc8Step_eq_zero hxor)

theorem crc8Step_bijective : Function.Bijective crc8Step := crc8Step_injective.bijective_of_finite

/-- Settles O33: the shift is R132's concatenation, bit 0 shows the bit lost, and so the step is injective on a finite set. -/
theorem bitStepFunctionIsBijective : Obligations.BitStepFunctionIsBijective := by
  refine ⟨fun t => ⟨?_, crc8Step_bit_zero t⟩, crc8Step_bijective⟩
  rw [← shiftLeft_one_eq_append]
  rfl

/-! The fold (R133). -/

theorem crc8Steps_eq_iterate (n : Nat) (t : Byte) : crc8Steps n t = crc8Step^[n] t := by
  induction n generalizing t with
  | zero => rfl
  | succ n ih => rw [crc8Steps_succ, ih, Function.iterate_succ_apply]

/-- The fold's last byte. -/
theorem crc8_concat (bs : List Byte) (b : Byte) : crc8 (bs ++ [b]) = crc8Byte (crc8 bs) b :=
  crc8From_append crcInit bs [b]

/-- Settles O34: the fold of a concatenation goes on from the fold of its first part. -/
theorem crcIsTheSourceFold : Obligations.CrcIsTheSourceFold :=
  ⟨rfl, fun bs b => (crc8_concat bs b).trans (crc8Steps_eq_iterate 8 _)⟩

/-! An edge that samples a given input with `rst = 0`. -/

section Edge

variable {s : State} {p : PortInput} {ps : List PortInput}

/-- In an idle state it runs the command. -/
theorem nextState_withInputs_of_idle (hb : s.busy = false) (hr : p.rst = false) :
    nextState (s.withInputs (p :: ps)) = (effect p.instr s).withInputs ps := by
  simp [nextState, hb, hr, effect_withInputs, PortInput.instr]

/-- In a busy state it makes the bit step, and sets ERR unless the command is NOP. -/
theorem nextState_withInputs_of_busy (hb : s.busy = true) (hr : p.rst = false) :
    nextState (s.withInputs (p :: ps)) =
      { s.bitStep with err := s.err || decide (p.instr ≠ .nop), inputs := ps } := by
  rw [nextState_of_busy (s := s.withInputs (p :: ps)) hb hr, State.bitStep_withInputs]
  rfl

end Edge

/-- NOP's word is its `wdata`, its opcode being 0 (R73). -/
theorem decode_wdata (w : Half) : decode (w.setWidth 19) = .nop := by
  have hword : commandWord 0#3 w = w.setWidth 19 := by simp [commandWord]
  rw [← hword, decode_commandWord, decodeFields_nop]

@[simp] theorem instr_nop_input (w : Half) : PortInput.instr ⟨false, 0#3, w⟩ = .nop := decode_commandWord 0#3 w

@[simp] theorem instr_start_input (w : Half) : PortInput.instr ⟨false, 5#3, w⟩ = .start := decode_commandWord 5#3 w

/-- Settles O9: the edge of a NOP in an idle state, and in a busy one. -/
theorem nopHasNoCommandEffect : Obligations.NopHasNoCommandEffect := by
  refine fun s w ps => ⟨decode_wdata w, rfl, fun hb => ?_, fun hb => ⟨?_, s.bitStep_err⟩⟩
  · rw [step_eq_nextState, nextState_withInputs_of_idle hb rfl, instr_nop_input, effect]
  · rw [step_eq_nextState, nextState_withInputs_of_busy hb rfl]
    simp [State.withInputs]

/-! START (R131). -/

theorem exec_start_of_idle {s : State} (hb : s.busy = false) : exec .start s = .next s.startFold := by
  rw [exec_eq_effect, effect, s.acceptOrDrop_idle _ hb]

/-- After an accepted START the STATUS word shows BUSY and nothing else. -/
theorem State.startFold_status (s : State) : s.startFold.status = 0x0001#16 := by
  simp [status]

/-- A state whose next input is a START without reset accepts it if it is idle. -/
theorem State.acceptsStart_of_inputs {s : State} {p : PortInput} {ps : List PortInput} (hin : s.inputs = p :: ps)
    (hr : p.rst = false) (hi : p.instr = .start) (hb : s.busy = false) : s.acceptsStart := by
  rw [acceptsStart, port_cons hin]
  exact ⟨hr, hb, hi⟩

/-- The edge of an accepted START makes its six writes. -/
theorem State.acceptsStart.nextState_eq {s : State} (hs : s.acceptsStart) : nextState s = s.consume.startFold := by
  obtain ⟨hr, hb, hi⟩ := hs
  simp [nextState, hr, hb, show decode s.port.word = .start from hi, effect]

/-- START and 56 NOPs, sampled in an idle state, compute the CRC of the fields. -/
theorem afterEdges_start_nops {s : State} {w : Half} (hb : s.busy = false)
    (hin : s.inputs = ⟨false, 0b101#3, w⟩ :: List.replicate 56 ⟨false, 0b000#3, 0#16⟩) :
    (afterEdges 57 s).done = true ∧ (afterEdges 57 s).crc = compute s.cmd s.addr s.data s.devid := by
  have hs : s.acceptsStart := State.acceptsStart_of_inputs hin rfl (instr_start_input w) hb
  have hrst : noReset s.inputs := by simp [noReset, hin]
  have h := hs.completed_afterEdges (List.append_nil _).symm hrst (by simp [hin])
  exact ⟨h.done, h.crc⟩

/-- The example of R131. -/
theorem compute_spec_example : compute 0x05#8 0x0002#16 0x0001#16 0x0000#16 = 0xEE#8 := by decide +kernel

theorem compute_zero_fields : compute 0x00#8 0x0000#16 0x0000#16 0x0000#16 = 0x00#8 := by decide +kernel

/-- Settles O14: an idle edge runs START's six writes; at the final bit step the edges of START and NOP differ in ERR only
(`nextState_withInputs_of_busy`); the two runs are `afterEdges_start_nops`. -/
theorem startBeginsAComputation : Obligations.StartBeginsAComputation := by
  refine ⟨fun s w ps => ⟨decode_commandWord 5#3 w, exec_start_of_idle, fun hb => exec_of_busy hb nofun,
    fun hb => ⟨_, step_eq_nextState _, ?_⟩, fun hb hf => ⟨_, step_eq_nextState _, ?_⟩⟩, fun s w hb hin => ?_⟩
  · have h : nextState (s.withInputs (⟨false, 0b101#3, w⟩ :: ps)) = s.startFold.withInputs ps := by
      rw [nextState_withInputs_of_idle hb rfl, instr_start_input, effect, s.acceptOrDrop_idle _ hb]
    rw [h]
    exact ⟨rfl, s.startFold_status, rfl⟩
  · have hbusy : s.bitStep.busy = false := by simpa [hf] using s.bitStep_busy_iff
    have hdone : s.bitStep.done = true := s.bitStep_done_iff.2 (.inl hf)
    rw [step_eq_nextState, nextState_withInputs_of_busy hb rfl, nextState_withInputs_of_busy hb rfl]
    simp [hbusy, hdone]
  · obtain ⟨hdone, hcrc⟩ := afterEdges_start_nops hb hin
    refine ⟨fun hc ha hd hv => ⟨_, runsTo_iff.2 rfl, hdone, ?_⟩, fun hc ha hd hv => ⟨_, runsTo_iff.2 rfl, hdone, ?_⟩⟩
    · rw [hcrc, hc, ha, hd, hv, compute_spec_example]
    · rw [hcrc, hc, ha, hd, hv, compute_zero_fields]

/-- Settles O22: a busy edge is the bit step but for ERR, and the bit step has the three cases of R142. -/
theorem bitStepAdvancesAndCompletes : Obligations.BitStepAdvancesAndCompletes := by
  refine fun s hb hr => ⟨nextState s, step_eq_nextState s, ?_⟩
  rw [nextState_of_busy hb hr]
  rcases s.bitStep_cases with ⟨hbit, hbyte', hbusy, hdone⟩ | ⟨hbit, hbyte, hbyte', hbusy, hdone⟩ |
    ⟨⟨hbyte, hbit⟩, hbyte', hbusy, hdone⟩
  · simp [hbit, hbyte', hbusy, hdone, hb]
  · simp [hbit, hbyte, hbyte', hbusy, hdone, hb]
  · simp [hbit, hbyte, hbyte', hbusy, hdone]

/-! The step as R150 prints it. -/

section Printed

variable {s : State}

/-- Part (A) while idle writes nothing. -/
theorem printedA_of_idle (hb : s.busy = false) (n : State) : printedA s n = n := by
  simp [printedA, hb]

/-- Part (A) while busy is the bit step, also after ERR was written. -/
theorem printedA_of_busy (hb : s.busy = true) (e : Bool) :
    printedA s { s with err := e } = { s.bitStep with err := e } := by
  rw [printedA, if_pos hb, State.bitStep]
  rcases s.advance_cases with ⟨hbit, h⟩ | ⟨hbit, hbyte, h⟩ | ⟨hbit, hbyte, h⟩
  · rw [h, if_neg hbit]; rfl
  · rw [h, if_pos hbit, if_neg hbyte]; rfl
  · rw [h, if_pos hbit, if_pos hbyte]; rfl

theorem printedA_self_of_busy (hb : s.busy = true) : printedA s s = s.bitStep := by
  calc printedA s s
    _ = { s.bitStep with err := s.err } := printedA_of_busy hb s.err
    _ = s.bitStep := by rw [← s.bitStep_err]

/-- Part (A) never writes ERR. -/
theorem printedA_self_err (s : State) : (printedA s s).err = s.err := by
  cases hb : s.busy with
  | false => rw [printedA_of_idle hb]
  | true => rw [printedA_self_of_busy hb, State.bitStep_err]

/-- Part (B) while busy writes at most ERR, whatever state it writes into. -/
theorem printedB_of_busy (hb : s.busy = true) (op : Idx3) (wdata : Half) (n : State) :
    printedB op wdata s n = { n with err := n.err || decide (op ≠ 0#3) } := by
  rcases opcode_cases op with rfl | rfl | rfl | rfl | rfl | rfl | rfl | rfl <;> simp [printedB, hb]

/-- Parts (A) and (B) commute: one of them writes nothing while idle, and while busy (B) writes ERR only, which (A) leaves. -/
theorem printedA_printedB_comm (op : Idx3) (wdata : Half) (s : State) :
    printedA s (printedB op wdata s s) = printedB op wdata s (printedA s s) := by
  cases hb : s.busy with
  | false => rw [printedA_of_idle hb, printedA_of_idle hb]
  | true =>
    rw [printedB_of_busy hb, printedB_of_busy hb, printedA_of_busy hb, printedA_self_of_busy hb, State.bitStep_err]

/-- The sequencer after the command is R150's part (A) after its part (B). -/
theorem sequencer_printedB (op : Idx3) (wdata : Half) (s : State) :
    State.sequencer s.busy (printedB op wdata s s) = printedA s (printedB op wdata s s) := by
  cases hb : s.busy with
  | false => rw [printedA_of_idle hb, State.sequencer_idle]
  | true =>
    rw [printedB_of_busy hb, printedA_of_busy hb, State.sequencer_busy]
    simpa using s.bitStep_passes (s.err || decide (op ≠ 0#3)) s.inputs

/-- The state after the next edge is R150's step of the input it samples. -/
theorem nextState_eq_printedStep (s : State) : nextState s = printedStep s.consume s.port := by
  have hcommand : effect (decode s.port.word) s.consume = printedB s.port.op s.port.wdata s.consume s.consume := by
    rw [PortInput.word, decode_commandWord, effect_decodeFields]
  rw [nextState, printedStep, hcommand, ← s.consume_busy, sequencer_printedB, printedA_printedB_comm]
  rfl

end Printed

/-- Settles O2: the machine's edge is R150's (`nextState_eq_printedStep`), and its two parts commute
(`printedA_printedB_comm`). -/
theorem stepIsThePrintedFunction : Obligations.StepIsThePrintedFunction := by
  refine ⟨fun s => by rw [step_eq_nextState, nextState_eq_printedStep], fun op wdata s => ?_⟩
  exact ⟨fun hb => ⟨_, printedB_of_busy hb op wdata s⟩, fun hb => printedA_of_idle hb s, printedA_self_err s,
    printedA_printedB_comm op wdata s⟩

/-! The running CRC (R143) and the result (R144). -/

/-- What R143 says of a state n bit steps into a computation. -/
theorem State.Computing.registers {s t : State} {n : Nat} (h : s.Computing n t) :
    t.crc = acc s.frame n ∧ t.byteIdx.toNat = n / 8 ∧ t.bitIdx.toNat = n % 8 ∧ t.busy = true ∧ t.done = false := by
  have hframe : t.frame = s.frame := frame_congr h.fields.cmd h.fields.addr h.fields.data h.fields.devid
  have hprogress : 8 * t.byteIdx.toNat + t.bitIdx.toNat = n := h.progress
  have hbit : t.bitIdx.toNat < 8 := t.bitIdx.isLt
  obtain ⟨-, -, hdone⟩ := h.inv
  exact ⟨by rw [h.folds h.busy, h.progress, hframe], by omega, by omega, h.busy, by simpa [h.busy] using hdone⟩

/-- Settles O40: the invariants of a computation in progress (`State.Computing`) hold n edges after its START. -/
theorem runningCrcFollowsTheSource : Obligations.RunningCrcFollowsTheSource := by
  intro s p ps rest hin hr hi hb hps hlen
  have hs : s.acceptsStart := State.acceptsStart_of_inputs hin hr hi hb
  have hrst : noReset (p :: ps) := List.forall_mem_cons.2 ⟨hr, hps⟩
  have hcomp := hs.computing_afterEdges hin hrst (k := ps.length) (by simp) hlen
  obtain ⟨hcrc, hbyte, hbit, hbusy, hdone⟩ := hcomp.registers
  exact ⟨_, runsTo_iff.2 rfl, hcrc, hbyte, hbit, hbusy, hdone, by simp [hin]⟩

/-- ERR k edges after the edge of an accepted START, k up to 56: one of the k commands was not NOP. -/
theorem State.acceptsStart.err_afterEdges {s : State} (hs : s.acceptsStart) {p : PortInput} {ps rest : List PortInput}
    (hin : s.inputs = p :: ps ++ rest) (hr : noReset (p :: ps)) {k : Nat} (hk : k ≤ ps.length) (hk56 : k ≤ 56) :
    (afterEdges (k + 1) s).err = true ↔ ∃ q ∈ ps.take k, q.instr ≠ .nop := by
  induction k with
  | zero => simp [afterEdges, hs.nextState_eq]
  | succ k ih =>
    have hlt : k + 1 < (p :: ps).length := by simpa using hk
    have hbusy := (hs.computing_afterEdges hin hr (k := k) (by omega) (by omega)).busy
    have hport : (afterEdges (k + 1) s).port = ps[k] := by
      apply State.port_cons (ps := (ps ++ rest).drop (k + 1))
      simp only [afterEdges_inputs, hin, List.cons_append, List.drop_succ_cons]
      rw [List.drop_eq_getElem_cons (by simp; omega), List.getElem_append_left hk]
    rw [afterEdges_succ, nextState_of_busy hbusy (port_afterEdges_rst hin hr hlt), hport, ← List.take_concat_get' ps k hk]
    simp only [Bool.or_eq_true, decide_eq_true_eq, ih (by omega) (by omega), List.mem_append, List.mem_singleton,
      or_and_right, exists_or, exists_eq_left]

/-- In an idle state edges that neither reset nor present START leave the registers of the sequencer. -/
theorem afterEdges_sameSequencer {s : State} {qs rest : List PortInput} (hb : s.busy = false) (hin : s.inputs = qs ++ rest)
    (hr : noReset qs) (hi : ∀ q ∈ qs, q.instr ≠ .start) : s.SameSequencer (afterEdges qs.length s) := by
  induction qs generalizing s with
  | nil => exact ⟨rfl, rfl, rfl, rfl, rfl⟩
  | cons q qs ih =>
    obtain ⟨hrq, hr⟩ := List.forall_mem_cons.1 hr
    obtain ⟨hiq, hi⟩ := List.forall_mem_cons.1 hi
    have hport : s.port = q := State.port_cons hin
    have hfirst : s.SameSequencer (nextState s) := by
      rcases nextState_sequencer_cases s with ⟨h, -⟩ | ⟨⟨-, -, h⟩, -⟩ | ⟨-, -, -, h⟩ | ⟨-, h, -⟩
      · simp [hport, hrq] at h
      · exact absurd h (hport ▸ hiq)
      · exact h
      · simp [hb] at h
    have hlater := ih (s := nextState s) (hfirst.busy.trans hb) (by simp [hin]) hr hi
    exact ⟨hlater.crc.trans hfirst.crc, hlater.busy.trans hfirst.busy, hlater.done.trans hfirst.done,
      hlater.byteIdx.trans hfirst.byteIdx, hlater.bitIdx.trans hfirst.bitIdx⟩

/-- Settles O41: after 56 edges the computation has ended (`State.Completed`), ERR has gathered the commands that were not NOP,
and the idle edges that follow keep the result. -/
theorem computationGivesTheCrc : Obligations.ComputationGivesTheCrc := by
  intro s p ps rest hin hr hi hb hps hlen
  have hs : s.acceptsStart := State.acceptsStart_of_inputs hin hr hi hb
  have hrst : noReset (p :: ps) := List.forall_mem_cons.2 ⟨hr, hps⟩
  have h := hs.completed_afterEdges hin hrst (by simp [hlen])
  have herr := hs.err_afterEdges hin hrst hlen.ge le_rfl
  rw [List.take_of_length_le hlen.le] at herr
  have hrest : (afterEdges 57 s).inputs = rest := by
    rw [afterEdges_inputs, hin]
    exact List.drop_left' (by simp [hlen])
  refine ⟨_, runsTo_iff.2 rfl, h.busy, h.done, h.byteIdx, h.bitIdx, h.crc, h.crc, herr, h.fields.cmd, h.fields.addr,
    h.fields.data, h.fields.devid, hrest, fun qs rest' hqs hrqs hiqs => ⟨_, runsTo_iff.2 rfl, ?_⟩⟩
  have hheld := afterEdges_sameSequencer h.busy (hrest.trans hqs) hrqs hiqs
  rw [afterEdges_add]
  exact ⟨hheld.crc, hheld.done.trans h.done⟩

end Sys2Proof.Machine

/-! PROOFS. Exceptions (spec/60_exceptions.md): what misuse does to an edge, when ERR is set and cleared, and the reserved
opcodes. -/

namespace Sys2Proof.Machine

/-! Misuse, the cases (E1) to (E3) of R171. -/

section Misuse

variable {s : State} {p : PortInput} {ps : List PortInput}

/-- In a busy state every command but NOP is misuse. -/
theorem PortInput.misuses_busy_iff : p.misuses true ↔ p.instr ≠ .nop := by
  rw [misuses]
  cases p.instr <;> simp

/-- In an idle state only the reserved opcodes are misuse. -/
theorem PortInput.misuses_idle_iff : p.misuses false ↔ p.instr = .reserved6 ∨ p.instr = .reserved7 := by
  rw [misuses]
  cases p.instr <;> simp

/-- The next edge of a state is the edge that samples its port. -/
theorem nextState_withInputs_port (s : State) : nextState (s.withInputs (s.port :: s.inputs.tail)) = nextState s := rfl

/-- The edge of misuse is that of NOP but for ERR (R171). -/
theorem nextState_withInputs_of_misuses (hr : p.rst = false) (hm : p.misuses s.busy) (w : Half) :
    nextState (s.withInputs (p :: ps)) =
      { nextState (s.withInputs (⟨false, 0b000#3, w⟩ :: ps)) with err := true } := by
  cases hb : s.busy with
  | false =>
    rw [hb, PortInput.misuses_idle_iff] at hm
    rw [nextState_withInputs_of_idle hb hr, nextState_withInputs_of_idle hb rfl, instr_nop_input]
    rcases hm with hi | hi <;> rw [hi] <;> rfl
  | true =>
    rw [hb, PortInput.misuses_busy_iff] at hm
    rw [nextState_withInputs_of_busy hb hr, nextState_withInputs_of_busy hb rfl]
    simp [hm]

end Misuse

/-! ERR (R28). -/

/-- ERR after an edge without reset: in an idle state the command decides; in a busy one every command but NOP sets it. -/
theorem nextState_err_iff {s : State} (hr : s.port.rst = false) :
    (nextState s).err = true ↔ s.port.misuses s.busy ∨ s.err = true ∧ ¬ s.acceptsStart := by
  rcases nextState_cases s with ⟨hr', -⟩ | ⟨-, hb, h⟩ | ⟨-, hb, h⟩
  · simp [hr] at hr'
  · rw [h, show decode s.port.word = s.port.instr from rfl, hb, PortInput.misuses_idle_iff]
    cases hi : s.port.instr <;> simp [effect, State.acceptsStart, hr, hb, hi]
  · rw [hb, PortInput.misuses_busy_iff]
    simp [h, State.not_acceptsStart_of_busy hb, PortInput.instr, or_comm]

/-- Settles O18: ERR after an edge is `nextState_err_iff`, and misuse leaves the state NOP leaves but for ERR
(`nextState_withInputs_of_misuses`). -/
theorem errIsSetExactlyByMisuse : Obligations.ErrIsSetExactlyByMisuse := by
  refine fun s => ⟨rfl, s.status_getElem_two, nextState s, step_eq_nextState s, fun hr => ?_,
    fun hr => ⟨nextState_err_iff hr, fun hm => ⟨_, step_eq_nextState _, ?_⟩⟩⟩
  · simp [nextState, hr]
  · rw [← nextState_withInputs_port s]
    exact nextState_withInputs_of_misuses hr hm 0#16

/-- ERR stays set along edges that neither reset nor present START (R172). -/
theorem afterEdges_err_of_noReset {s : State} {ps : List PortInput} (he : s.err = true) (hin : s.inputs = ps) (hr : noReset ps)
    (hi : ∀ p ∈ ps, p.instr ≠ .start) : (afterEdges ps.length s).err = true := by
  induction ps generalizing s with
  | nil => exact he
  | cons p ps ih =>
    obtain ⟨hrp, hr⟩ := List.forall_mem_cons.1 hr
    obtain ⟨hip, hi⟩ := List.forall_mem_cons.1 hi
    have hport : s.port = p := State.port_cons hin
    have hkept : ¬ s.acceptsStart := fun ⟨_, _, hs⟩ => hip (hport ▸ hs)
    exact ih ((nextState_err_iff (hport ▸ hrp)).2 (.inr ⟨he, hkept⟩)) (by simp [hin]) hr hi

/-- An idle state with its counters at 0 and DONE clear shows ERR, once set, and nothing else in STATUS. -/
theorem State.setErr_status {s : State} (hb : s.busy = false) (hd : s.done = false) (hbyte : s.byteIdx = 0#3)
    (hbit : s.bitIdx = 0#3) : s.setErr.status = 0x0004#16 := by
  simp [status, hb, hd, hbyte, hbit]

@[simp] theorem instr_reserved6_input (w : Half) : PortInput.instr ⟨false, 6#3, w⟩ = .reserved6 := decode_commandWord 6#3 w

@[simp] theorem instr_reserved7_input (w : Half) : PortInput.instr ⟨false, 7#3, w⟩ = .reserved7 := decode_commandWord 7#3 w

/-- A reserved opcode is misuse, idle or busy: (E3) of R171. -/
theorem PortInput.misuses_of_reserved {p : PortInput} (h : p.instr = .reserved6 ∨ p.instr = .reserved7) (busy : Bool) :
    p.misuses busy := by
  rcases h with h | h <;> simp [misuses, h]

/-- Settles O15: a reserved opcode is misuse in every state, so its edge is `nextState_withInputs_of_misuses`; ERR is then kept
by induction on the edges (`afterEdges_err_of_noReset`). -/
theorem reservedOpcodesSetOnlyErr : Obligations.ReservedOpcodesSetOnlyErr := by
  refine ⟨fun s w ps => ⟨decode_commandWord 6#3 w, decode_commandWord 7#3 w, rfl, rfl,
    ⟨_, step_eq_nextState _, ?_, ?_⟩, State.setErr_status⟩,
    fun s ps he hin hr hi => ⟨_, runsTo_iff.2 rfl, afterEdges_err_of_noReset he hin hr hi⟩⟩
  · rw [step_eq_nextState,
      nextState_withInputs_of_misuses rfl (PortInput.misuses_of_reserved (.inl (instr_reserved6_input w)) _) w]
  · rw [step_eq_nextState,
      nextState_withInputs_of_misuses rfl (PortInput.misuses_of_reserved (.inr (instr_reserved7_input w)) _) w]

end Sys2Proof.Machine

/-! PROOFS. Reset and hazards (spec/70_reset_and_hazards.md): RESET_STATE after a reset edge (R190), and the busy window of a
computation, which takes in the edge of the last bit step (R195). -/

namespace Sys2Proof.Machine

/-! Reset (R190). -/

/-- A reset edge reads nothing of the state and nothing of the command. -/
theorem nextState_withInputs_of_rst (s : State) {p : PortInput} (hr : p.rst = true) (ps : List PortInput) :
    nextState (s.withInputs (p :: ps)) = State.reset.withInputs ps := by
  rw [nextState, State.port_withInputs, if_pos hr, State.consume_withInputs, State.resetRegs_eq, State.withInputs_inputs]

/-- The power-up state is a state with inputs to come, like any other. -/
theorem State.powerUp_eq_withInputs (ps : List PortInput) : State.powerUp ps = (State.powerUp []).withInputs ps := rfl

/-- STATUS in RESET_STATE, whatever is presented next. -/
theorem State.reset_withInputs_status (ps : List PortInput) : (State.reset.withInputs ps).status = 0x0000#16 :=
  statusWordLayout.1

/-- Settles O24: a reset edge leads to RESET_STATE (`nextState_withInputs_of_rst`), whose registers and outputs are read off its
definition; the power-up state is one of the states that lemma speaks of (`State.powerUp_eq_withInputs`). -/
theorem resetLoadsResetState : Obligations.ResetLoadsResetState := by
  have hstep (s : State) (op : Idx3) (wdata : Half) (ps : List PortInput) :
      step (s.withInputs (⟨true, op, wdata⟩ :: ps)) = .next (State.reset.withInputs ps) := by
    rw [step_eq_nextState, nextState_withInputs_of_rst s rfl]
  refine ⟨fun s op wdata ps => ⟨_, hstep s op wdata ps, ?_⟩, fun op wdata ps => ?_⟩
  · exact ⟨rfl, rfl, rfl, rfl, rfl, rfl, rfl, rfl, rfl, rfl, rfl, rfl, State.reset_withInputs_status ps, rfl⟩
  · rw [State.powerUp_eq_withInputs, hstep]

/-! The edges of a computation (R195). -/

section BusyWindow

variable {s t : State} {n : Nat}

/-- A command sampled during a computation writes no field register, at the final edge either. -/
theorem State.Computing.sameFields_nextState (h : s.Computing n t) (hr : t.port.rst = false) :
    s.SameFields (nextState t) := by
  rw [nextState_of_busy h.busy hr]
  constructor <;> simp [h.fields.cmd, h.fields.addr, h.fields.data, h.fields.devid]

/-- A command sampled during a computation sets ERR unless it is NOP. -/
theorem State.Computing.err_nextState (h : s.Computing n t) (hr : t.port.rst = false) (hi : t.port.instr ≠ .nop) :
    (nextState t).err = true := by
  simp [nextState_of_busy h.busy hr, hi]

/-- BUSY falls at the 56th bit step and at no other. -/
theorem State.Computing.busy_nextState_iff (h : s.Computing n t) (hr : t.port.rst = false) :
    (nextState t).busy = false ↔ n = 55 := by
  rw [nextState_of_busy h.busy hr, ← h.progress, ← t.atFinalBit_iff_progress, ← Bool.not_eq_true, t.bitStep_busy_iff]
  simp [h.busy]

end BusyWindow

/-- Settles O42: the edge sampled n edges after START's, n up to 55, is an edge of the computation in progress
(`State.Computing`); after 56 edges the state is idle again (`State.Completed`) and accepts the START presented to it. -/
theorem commandsAreDroppedUpToTheFinalEdge : Obligations.CommandsAreDroppedUpToTheFinalEdge := by
  intro s p ps rest hin hr hi hb hps
  have hs : s.acceptsStart := State.acceptsStart_of_inputs hin hr hi hb
  have hrst : noReset (p :: ps) := List.forall_mem_cons.2 ⟨hr, hps⟩
  have hrest : (afterEdges (ps.length + 1) s).inputs = rest := by simp [hin]
  constructor
  · intro q qs hq hrq hlen
    have hcomp := hs.computing_afterEdges hin hrst (k := ps.length) (by simp) hlen
    have hport : (afterEdges (ps.length + 1) s).port = q := State.port_cons (hrest.trans hq)
    rw [← hport] at hrq ⊢
    obtain ⟨hcmd, haddr, hdata, hdevid⟩ := hcomp.sameFields_nextState hrq
    exact ⟨_, _, runsTo_iff.2 rfl, hcomp.busy, runsTo_iff.2 (afterEdges_succ _ s).symm, hcmd, haddr, hdata, hdevid,
      hcomp.err_nextState hrq, hcomp.busy_nextState_iff hrq⟩
  · intro q qs hq hrq hiq hlen
    have hdone := hs.completed_afterEdges hin hrst (by simp [hlen])
    rw [hlen] at hrest
    have hagain : (afterEdges 57 s).acceptsStart := State.acceptsStart_of_inputs (hrest.trans hq) hrq hiq hdone.busy
    refine ⟨nextState (afterEdges 57 s), runsTo_iff.2 (afterEdges_succ 57 s).symm, ?_⟩
    rw [hagain.nextState_eq]
    exact ⟨rfl, rfl, rfl, rfl⟩

end Sys2Proof.Machine

/-! PROOFS. Words and instructions: the decoder and the encoder undo each other up to the bits a command ignores, the opcode
alone selects the command, and the assembler emits the words of R77. -/

namespace Sys2Proof.Machine

/-! Fields of a word. -/

/-- A mask that keeps the opcode bits acts on `wdata` only. -/
theorem and_commandWord (w : CW) (m : Half) : w &&& commandWord 7#3 m = commandWord (opOf w) (wdataOf w &&& m) := by
  apply BitVec.eq_of_getLsbD_eq
  intro i hi
  rw [BitVec.getLsbD_and, getLsbD_commandWord, getLsbD_commandWord]
  by_cases h : i < 16
  · simp [h, wdataOf]
  · have hop : (7#3).getLsbD (i - 16) = true := by
      rw [show 7#3 = BitVec.allOnes 3 from rfl, BitVec.getLsbD_allOnes]
      exact decide_eq_true (by omega)
    simp [h, hop, opOf, show i - 16 < 3 by omega, show 16 + (i - 16) = i by omega]

/-- A word determines its fields. -/
theorem commandWord_inj {op op' : Idx3} {a b : Half} : commandWord op a = commandWord op' b ↔ op = op' ∧ a = b := by
  refine ⟨fun h => ⟨?_, ?_⟩, fun ⟨hop, hab⟩ => by rw [hop, hab]⟩
  · simpa using congrArg opOf h
  · simpa using congrArg wdataOf h

/-- The decoded command has the word's opcode. -/
@[simp] theorem opcode_decodeFields (op : Idx3) (w : Half) : (decodeFields op w).opcode = op := by
  rcases opcode_cases op with rfl | rfl | rfl | rfl | rfl | rfl | rfl | rfl <;> rfl

theorem opcode_decode (w : CW) : (decode w).opcode = opOf w := opcode_decodeFields _ _

/-! The bits a command uses (R72, R73). -/

/-- The bits of `wdata` that the command of an opcode uses (R72). -/
def usedWdata (op : Idx3) : Half :=
  if op = 1#3 then 0x00FF#16 else if op = 2#3 ∨ op = 3#3 ∨ op = 4#3 then 0xFFFF#16 else 0x0000#16

/-- The opcode bits are used by every command, and the opcode says which bits of `wdata` are. -/
theorem usedBits_eq (i : Instr) : i.usedBits = commandWord 7#3 (usedWdata i.opcode) := by
  cases i <;> simp [Instr.usedBits, Instr.opcode, usedWdata, commandWord]

/-- WR_CMD's operand, as the assembler emits it again, is `wdata` with its high byte cleared. -/
theorem setWidth_imm8Of (w : Half) : (imm8Of w).setWidth 16 = w &&& 0x00FF#16 := by
  apply BitVec.eq_of_toNat_eq
  rw [BitVec.toNat_and, show (0x00FF#16).toNat = 2 ^ 8 - 1 from rfl, Nat.and_two_pow_sub_one_eq_mod]
  simp [imm8Of]
  omega

/-- The `wdata` of a decoded command is the word's with the ignored bits cleared. -/
theorem wdata_decodeFields (op : Idx3) (w : Half) : (decodeFields op w).wdata = w &&& usedWdata op := by
  have hall : w = w &&& 0xFFFF#16 := BitVec.and_allOnes.symm
  have hnone : 0x0000#16 = w &&& 0x0000#16 := BitVec.and_zero.symm
  rcases opcode_cases op with rfl | rfl | rfl | rfl | rfl | rfl | rfl | rfl
  exacts [hnone, setWidth_imm8Of w, hall, hall, hall, hnone, hnone, hnone]

/-- Encoding a decoded word keeps the used bits and clears the others. -/
theorem encode_decode (w : CW) : encode (decode w) = w &&& (decode w).usedBits := by
  rw [usedBits_eq, and_commandWord, encode, opcode_decode, decode, wdata_decodeFields]

/-- R73's mask shows the opcode. -/
theorem and_mask_eq_iff (w : CW) (op : Idx3) : w &&& 0x70000#19 = commandWord op 0x0000#16 ↔ (decode w).opcode = op := by
  rw [show 0x70000#19 = commandWord 7#3 0x0000#16 from rfl, and_commandWord, commandWord_inj, opcode_decode, BitVec.and_zero]
  simp

/-- Words that agree in the bits a command uses have the same opcode. -/
theorem opOf_eq_of_and_usedBits_eq {w w' : CW} {i : Instr} (h : w' &&& i.usedBits = w &&& i.usedBits) : opOf w' = opOf w := by
  rw [usedBits_eq, and_commandWord, and_commandWord, commandWord_inj] at h
  exact h.1

/-- Settles O5: an operand is read back from the `wdata` that its word carries. -/
theorem decodeOfEncode : Obligations.DecodeOfEncode := decode_encode

/-- Settles O6: words that agree in the used bits have one opcode, hence the same used bits, hence the same encoding of what they
decode to (`encode_decode`), which decodes to it again. -/
theorem encodeOfDecodeClearsIgnoredBits : Obligations.EncodeOfDecodeClearsIgnoredBits := by
  refine fun w => ⟨encode_decode w, fun w' h => ?_⟩
  have hused : (decode w').usedBits = (decode w).usedBits := by
    rw [usedBits_eq, usedBits_eq, opcode_decode, opcode_decode, opOf_eq_of_and_usedBits_eq h]
  calc decode w'
    _ = decode (encode (decode w')) := (decode_encode _).symm
    _ = decode (encode (decode w)) := by rw [encode_decode w', encode_decode w, hused, h]
    _ = decode w := decode_encode _

/-- The opcode map of R73, row by row: an opcode belongs to one command and to no other. -/
theorem opcode_eq_iff (i : Instr) :
    (i.opcode = 0#3 ↔ i = .nop) ∧ (i.opcode = 1#3 ↔ ∃ v, i = .wrCmd v) ∧ (i.opcode = 2#3 ↔ ∃ v, i = .wrAddr v) ∧
    (i.opcode = 3#3 ↔ ∃ v, i = .wrData v) ∧ (i.opcode = 4#3 ↔ ∃ v, i = .wrDevid v) ∧ (i.opcode = 5#3 ↔ i = .start) ∧
    (i.opcode = 6#3 ↔ i = .reserved6) ∧ (i.opcode = 7#3 ↔ i = .reserved7) := by
  cases i <;> simp [Instr.opcode]

/-- Settles O7: each row's match is `op << 16`, so the mask compares opcodes (`and_mask_eq_iff`), and an opcode is one row's
(`opcode_eq_iff`). -/
theorem maskAndMatchSelectTheCommand : Obligations.MaskAndMatchSelectTheCommand := by
  intro w
  obtain ⟨hnop, hcmd, haddr, hdata, hdevid, hstart, hres6, hres7⟩ := opcode_eq_iff (decode w)
  have hmask := and_mask_eq_iff w
  exact ⟨(hmask 0#3).trans hnop, (hmask 1#3).trans hcmd, (hmask 2#3).trans haddr, (hmask 3#3).trans hdata,
    (hmask 4#3).trans hdevid, (hmask 5#3).trans hstart, (hmask 6#3).trans hres6, (hmask 7#3).trans hres7⟩

/-- Settles O8: ten fixed words. -/
theorem writtenOutWordsDecode : Obligations.WrittenOutWordsDecode := by
  unfold Obligations.WrittenOutWordsDecode
  decide

/-! Numbers as words, and the assembler's operands (R70, R77). -/

/-- A number of at most 19 bits decodes as the word it is. -/
theorem decodeTableWord_of_lt {w : Nat} (h : w < 2 ^ 19) : decodeTableWord 24 w = some (decode (BitVec.ofNat 19 w)) := by
  rw [decodeTableWord, Nat.mod_eq_of_lt (show w < 2 ^ 24 by omega), decodeWord, if_pos (by simpa [wordFits] using h)]
  rfl

/-- A number of more bits is no word. -/
theorem decodeTableWord_of_le {w : Nat} (h : 2 ^ 19 ≤ w) (h24 : w < 2 ^ 24) : decodeTableWord 24 w = none := by
  rw [decodeTableWord, Nat.mod_eq_of_lt h24, decodeWord, if_neg (by simpa [wordFits] using h)]
  rfl

/-- The next edge of `withFetchWord` samples the word's inputs. -/
theorem port_withFetchWord (s : State) {w : Nat} (h : w < 2 ^ 24) :
    (s.withFetchWord 24 w).port = PortInput.ofWord (BitVec.ofNat 19 w) := by
  rw [State.withFetchWord, Nat.mod_eq_of_lt h]
  exact State.port_cons (s.presentNext_inputs _)

/-- Settles O4: the port is `port_withFetchWord`'s, and `decodeTableWord` asks whether the number has 19 bits. -/
theorem presentedWordIsSampledNext : Obligations.PresentedWordIsSampledNext := by
  refine fun s w h24 => ⟨fun h => ?_, fun h => decodeTableWord_of_le h h24⟩
  rw [port_withFetchWord s h24, PortInput.word_ofWord]
  exact ⟨rfl, rfl, rfl, decodeTableWord_of_lt h⟩

/-- A line with an operand that does not fit is refused. -/
theorem assembleLine_of_not_wellFormed {l : AsmLine} (h : l.wellFormed = false) :
    assembleLine l = .error .operandTooWide := by
  simp [assembleLine, h]

/-- A write whose operand fits is assembled to its opcode word with the operand below. -/
theorem assembleLine_write {l : AsmLine} {i : Instr} (op : Idx3) {v : Half} {n : Nat} (hl : l.wellFormed = true)
    (hin : AsmLine.inputs l = [present i]) (hop : i.opcode = op) (hdata : i.wdata = v)
    (hv : v.setWidth 19 = BitVec.ofNat 19 n) :
    assembleLine l = .ok [PortInput.ofWord (op.setWidth 19 <<< 16 ||| BitVec.ofNat 19 n)] := by
  rw [assembleLine_of_wellFormed hl, hin, present, encode, commandWord, hop, hdata, hv]

/-- Settles O45: a line is assembled exactly if its operand fits (`AsmLine.wellFormed`), and then to its instruction's word. -/
theorem assemblerEncodesAndRefuses : Obligations.AssemblerEncodesAndRefuses := by
  refine ⟨rfl, rfl, fun n => ⟨fun h => ?_, fun h => ?_, fun h => ?_, fun h => ?_, fun h => ?_⟩⟩
  · have hfit : imm8Fits n = true := decide_eq_true h
    have hoperand : ((BitVec.ofNat 8 n).setWidth 16).setWidth 19 = BitVec.ofNat 19 n := by
      rw [BitVec.setWidth_ofNat_of_le_of_lt (by decide) (by omega), BitVec.setWidth_ofNat_of_le_of_lt (by decide) (by omega)]
    exact assembleLine_write (l := .wrCmd n) 1#3 hfit rfl rfl rfl hoperand
  · have hfit : imm16Fits n = true := decide_eq_true h
    have hoperand : (BitVec.ofNat 16 n).setWidth 19 = BitVec.ofNat 19 n :=
      BitVec.setWidth_ofNat_of_le_of_lt (by decide) (by omega)
    exact ⟨assembleLine_write (l := .wrAddr n) 2#3 hfit rfl rfl rfl hoperand,
      assembleLine_write (l := .wrData n) 3#3 hfit rfl rfl rfl hoperand,
      assembleLine_write (l := .wrDevid n) 4#3 hfit rfl rfl rfl hoperand⟩
  · have hwide : imm8Fits n = false := decide_eq_false (by omega)
    exact assembleLine_of_not_wellFormed hwide
  · have hwide : imm16Fits n = false := decide_eq_false (by omega)
    exact ⟨assembleLine_of_not_wellFormed hwide, assembleLine_of_not_wellFormed hwide, assembleLine_of_not_wellFormed hwide⟩
  · have hfit : wordFits n = true := decide_eq_true h
    exact ⟨_, assembleLine_of_wellFormed hfit, rfl, PortInput.word_ofWord _⟩

end Sys2Proof.Machine

/-! PROOFS. The algebra of CRC8 (R145): the fold is linear, and from any accumulator and in any byte it is injective. -/

namespace Sys2Proof.Machine

/-- Settles O35: the source's masks and its first bit step leave the low bytes only (`toNat_compute_ofNat`). -/
theorem computeAgreesWithTheUnmaskedSource : Obligations.ComputeAgreesWithTheUnmaskedSource := toNat_compute_ofNat

/-! Linearity. -/

theorem crc8Steps_xor (n : Nat) (a b : Byte) : crc8Steps n (a ^^^ b) = crc8Steps n a ^^^ crc8Steps n b := by
  induction n generalizing a b with
  | zero => rfl
  | succ n ih => simp only [crc8Steps_succ, crc8Step_xor, ih]

theorem crc8Byte_xor (a b x y : Byte) : crc8Byte (a ^^^ b) (x ^^^ y) = crc8Byte a x ^^^ crc8Byte b y := by
  rw [crc8Byte, show a ^^^ b ^^^ (x ^^^ y) = (a ^^^ x) ^^^ (b ^^^ y) by ac_rfl, crc8Steps_xor]
  rfl

/-- The fold is linear in its accumulator and its bytes together. -/
theorem crc8From_xor (a b : Byte) {xs ys : List Byte} (h : xs.length = ys.length) :
    crc8From (a ^^^ b) (List.zipWith (· ^^^ ·) xs ys) = crc8From a xs ^^^ crc8From b ys := by
  induction xs generalizing a b ys with
  | nil =>
    rw [List.eq_nil_of_length_eq_zero h.symm]
    rfl
  | cons x xs ih =>
    cases ys with
    | nil => cases h
    | cons y ys =>
      simp only [List.zipWith_cons_cons, crc8From_cons, crc8Byte_xor]
      exact ih _ _ (Nat.succ.inj h)

/-- Settles O37: INIT is 0x00, the XOR of two INITs. -/
theorem crcIsLinear : Obligations.CrcIsLinear := fun _ _ h => crc8From_xor crcInit crcInit h

/-- Folding a byte 0x00 into 0x00 leaves 0x00. -/
@[simp] theorem crc8Byte_zero : crc8Byte 0x00#8 0x00#8 = 0x00#8 := by
  simp [crc8Byte, crc8Steps]

/-- Settles O36: INIT is 0x00, and each byte 0x00 leaves it. -/
theorem zeroBytesFoldToZero : Obligations.ZeroBytesFoldToZero := by
  intro n
  rw [crc8, show crcInit = 0x00#8 from rfl]
  induction n with
  | zero => rfl
  | succ n ih => rw [List.replicate_succ, crc8From_cons, crc8Byte_zero, ih]

/-! Injectivity. -/

theorem crc8Steps_bijective (n : Nat) : Function.Bijective (crc8Steps n) := by
  rw [show crc8Steps n = crc8Step^[n] from funext (crc8Steps_eq_iterate n)]
  exact crc8Step_bijective.iterate n

/-- The fold of one byte is injective in the byte. -/
theorem crc8Byte_injective_right (crc : Byte) : Function.Injective (crc8Byte crc) := fun _ _ h =>
  (BitVec.xor_right_inj _).1 ((crc8Steps_bijective 8).injective h)

/-- The fold of one byte is injective in the accumulator. -/
theorem crc8Byte_injective_left (b : Byte) : Function.Injective (crc8Byte · b) := fun _ _ h =>
  (BitVec.xor_left_inj _).1 ((crc8Steps_bijective 8).injective h)

theorem crc8From_injective (bs : List Byte) : Function.Injective (crc8From · bs) := by
  induction bs with
  | nil => exact Function.injective_id
  | cons b bs ih => exact ih.comp (crc8Byte_injective_left b)

/-- CRC8 is injective in any one byte of the sequence. -/
theorem crc8_set_injective {bs : List Byte} {i : Nat} (h : i < bs.length) :
    Function.Injective (fun b => crc8 (bs.set i b)) := by
  intro x y hxy
  simp only [List.set_eq_take_append_cons_drop, if_pos h, crc8, crc8From_append, crc8From_cons] at hxy
  exact crc8Byte_injective_right _ (crc8From_injective _ hxy)

/-- Settles O38: INIT is 0x00, so the one byte goes into the eight bit steps as it is. -/
theorem oneByteCrcIsBijective : Obligations.OneByteCrcIsBijective := by
  have hcrc (b : Byte) : crc8 [b] = crc8Steps 8 b := congrArg (crc8Steps 8) BitVec.zero_xor
  refine ⟨fun b => (hcrc b).trans (crc8Steps_eq_iterate 8 b), ?_⟩
  rw [show (fun b => crc8 [b]) = crc8Steps 8 from funext hcrc]
  exact crc8Steps_bijective 8

/-- Flipping a bit of a byte changes it. -/
theorem xor_one_shiftLeft_ne (b : Byte) {k : Nat} (hk : k < 8) : b ^^^ (1#8 <<< k) ≠ b := by
  intro h
  have hbit := congrArg (BitVec.getLsbD · k) h
  simp [hk] at hbit

/-- Settles O39: CRC8 is injective in the byte that holds the flipped bit (`crc8_set_injective`). -/
theorem oneBitErrorsAreDetected : Obligations.OneBitErrorsAreDetected := by
  intro bs i k h hk heq
  have hsame : crc8 (bs.set i (bs[i] ^^^ (1#8 <<< k))) = crc8 (bs.set i bs[i]) := by rw [heq, List.set_getElem_self]
  exact xor_one_shiftLeft_ne bs[i] hk (crc8_set_injective h hsame)

end Sys2Proof.Machine

/-! PROOFS. The step and whole runs: what one edge does, the invariants at an edge, the boot sequence of R192, and systems of
several blocks (R179). -/

namespace Sys2Proof.Machine

/-! One edge. -/

/-- Settles O26: (I1) to (I3) in each case of an edge (`nextState_inv`). -/
theorem stepKeepsTheSequencerInvariant : Obligations.StepKeepsTheSequencerInvariant := fun s hi =>
  ⟨nextState s, step_eq_nextState s, nextState_inv hi⟩

/-- Settles O27: (I5) in each case of an edge (`nextState_folds`); a bit step is one more iteration of the source's
(`State.bitStep_folds`). -/
theorem stepKeepsTheFoldInvariant : Obligations.StepKeepsTheFoldInvariant := fun s hi hf =>
  ⟨nextState s, step_eq_nextState s, nextState_inv hi, nextState_folds hi hf⟩

/-- Settles O25: RESET_STATE is idle with its counters at 0. -/
theorem resetMeetsTheInvariants : Obligations.ResetMeetsTheInvariants := reset_invariants []

theorem nextState_of_rst {s : State} (hr : s.port.rst = true) : nextState s = State.reset.withInputs s.inputs.tail := by
  rw [nextState, if_pos hr, State.resetRegs_eq, State.consume_inputs]

theorem nextState_of_not_rst {s : State} (hr : s.port.rst = false) :
    nextState s = State.sequencer s.busy (effect s.port.instr s.consume) := by
  simp [nextState, hr, PortInput.instr]

/-- Settles O1: the two branches of an edge, reset and command (`nextState_of_rst`, `nextState_of_not_rst`). -/
theorem stepRunsTheSampledCommand : Obligations.StepRunsTheSampledCommand := by
  refine fun s => ⟨State.port_nil, fun p ps => State.port_cons, s.consume_eq, fun hr => ?_,
    fun hr => ⟨effect s.port.instr s.consume, exec_eq_effect _ _, ?_⟩⟩
  · rw [step_eq_nextState, nextState_of_rst hr]
  · rw [step_eq_nextState, nextState_of_not_rst hr, State.sequencer]

/-- Settles O17: a write leaves the state idle, and a register takes the same value again. -/
theorem fieldWritesAreIdempotent : Obligations.FieldWritesAreIdempotent := by
  rintro s i c h (rfl | rfl | rfl | rfl) hb
  · exact ⟨_, exec_wrCmd_of_idle hb c, hb, exec_wrCmd_of_idle (s := s.setCmd c) hb c⟩
  · exact ⟨_, exec_wrAddr_of_idle hb h, hb, exec_wrAddr_of_idle (s := s.setAddr h) hb h⟩
  · exact ⟨_, exec_wrData_of_idle hb h, hb, exec_wrData_of_idle (s := s.setData h) hb h⟩
  · exact ⟨_, exec_wrDevid_of_idle hb h, hb, exec_wrDevid_of_idle (s := s.setDevid h) hb h⟩

/-- Settles O43: idle edges without START leave the registers of the sequencer (`afterEdges_sameSequencer`). -/
theorem resultIsHeldUntilStartOrReset : Obligations.ResultIsHeldUntilStartOrReset := by
  intro s ps rest hin hb hr hi
  have hheld := afterEdges_sameSequencer hb hin hr hi
  exact ⟨_, runsTo_iff.2 rfl, hheld.crc, hheld.done, hheld.busy.trans hb, by simp [hin]⟩

/-! The boot sequence (R192). -/

/-- Idle edges without START run the commands one after another. -/
theorem afterEdges_idle {s : State} {ps : List PortInput} (hb : s.busy = false) (hr : noReset ps)
    (hi : ∀ p ∈ ps, p.instr ≠ .start) (rest : List PortInput) :
    afterEdges ps.length (s.withInputs (ps ++ rest)) = (ps.foldl (fun t p => effect p.instr t) s).withInputs rest := by
  induction ps generalizing s with
  | nil => rfl
  | cons p ps ih =>
    obtain ⟨hrp, hr⟩ := List.forall_mem_cons.1 hr
    obtain ⟨hip, hi⟩ := List.forall_mem_cons.1 hi
    have hidle : (effect p.instr s).busy = false := (effect_sameSequencer hb hip).busy.trans hb
    rw [List.length_cons, afterEdges, List.cons_append, nextState_withInputs_of_idle hb hrp, ih hidle hr hi, List.foldl_cons]

/-- Updates that commute and leave BUSY commute as accepted or dropped commands too: dropped, both only set ERR. -/
theorem acceptOrDrop_commute {f g : State → State} (hf : ∀ s, (f s).busy = s.busy) (hg : ∀ s, (g s).busy = s.busy)
    (hfg : Function.Commute f g) :
    Function.Commute (fun s : State => s.acceptOrDrop (f s)) (fun s : State => s.acceptOrDrop (g s)) := by
  intro s
  cases hb : s.busy with
  | false => simp [hb, hf, hg, hfg s]
  | true => simp [hb]

/-- The four field writes commute with each other. -/
theorem effect_writes_commute (c : Byte) (a d v : Half) :
    (writeInputs c a d v).Pairwise fun p q => Function.Commute (effect p.instr) (effect q.instr) := by
  simp only [writeInputs, List.pairwise_cons, List.forall_mem_cons, present_instr, List.not_mem_nil, false_imp_iff,
    implies_true, List.Pairwise.nil, and_true]
  refine ⟨⟨?_, ?_, ?_⟩, ⟨?_, ?_⟩, ?_⟩ <;> exact acceptOrDrop_commute (fun _ => rfl) (fun _ => rfl) (fun _ => rfl)

/-- The four field writes, issued in an idle state in any order, load the four fields and leave the state idle. -/
theorem afterEdges_perm_writes {s : State} (hb : s.busy = false) {c : Byte} {a d v : Half} {ws : List PortInput}
    (hws : ws.Perm (writeInputs c a d v)) (rest : List PortInput) :
    afterEdges 4 (s.withInputs (ws ++ rest)) = (s.setFields c a d v).withInputs rest := by
  have hrst : noReset (writeInputs c a d v) := by simp [noReset, writeInputs]
  have hinstr : ∀ p ∈ writeInputs c a d v, p.instr ≠ .start := by simp [writeInputs]
  have : Std.Symm fun p q : PortInput => Function.Commute (effect p.instr) (effect q.instr) := ⟨fun _ _ h => h.symm⟩
  have hcomm := (effect_writes_commute c a d v).forall_of_forall fun p _ => Function.Commute.refl (effect p.instr)
  calc afterEdges 4 (s.withInputs (ws ++ rest))
    _ = (ws.foldl (fun t p => effect p.instr t) s).withInputs rest := by
      rw [← afterEdges_idle hb (fun p hp => hrst p (hws.subset hp)) (fun p hp => hinstr p (hws.subset hp)), hws.length_eq]
      rfl
    _ = ((writeInputs c a d v).foldl (fun t p => effect p.instr t) s).withInputs rest := by
      rw [hws.foldl_eq' fun p hp q hq t => hcomm (hws.subset hq) (hws.subset hp) t]
    _ = (s.setFields c a d v).withInputs rest := by
      rw [← afterEdges_idle hb hrst hinstr]
      exact afterEdges_writes (s := s.withInputs (writeInputs c a d v ++ rest)) hb rfl

/-- START and 56 NOPs, sampled in an idle state, compute the CRC of the fields, and no command among them is misuse. -/
theorem afterEdges_start_wait {s : State} (hb : s.busy = false) {rest : List PortInput}
    (hin : s.inputs = present .start :: waitInputs 56 ++ rest) :
    (afterEdges 57 s).done = true ∧ (afterEdges 57 s).crc = compute s.cmd s.addr s.data s.devid ∧
    (afterEdges 57 s).err = false := by
  have hs : s.acceptsStart := State.acceptsStart_of_inputs hin rfl (present_instr .start) hb
  have hrst : noReset (present .start :: waitInputs 56) := by simp [noReset, waitInputs]
  have h := hs.completed_afterEdges hin hrst (by simp [waitInputs])
  refine ⟨h.done, h.crc, ?_⟩
  rw [← Bool.not_eq_true, hs.err_afterEdges hin hrst (k := 56) (by simp [waitInputs]) le_rfl]
  simp [waitInputs]

/-- Settles O44: the reset edge leads to RESET_STATE, the writes commute and load the fields (`afterEdges_perm_writes`), and START
and 56 NOPs compute their CRC (`afterEdges_start_wait`). -/
theorem bootSequenceComputes : Obligations.BootSequenceComputes := by
  intro s c a d v op wdata ws rest hws hin
  have hin' : s.inputs = ⟨true, op, wdata⟩ :: (ws ++ (present .start :: waitInputs 56 ++ rest)) := by
    simpa [waitInputs] using hin
  have hreset : afterEdges 1 s = State.reset.withInputs (ws ++ (present .start :: waitInputs 56 ++ rest)) := by
    rw [afterEdges, nextState_of_rst (by rw [State.port_cons hin']), hin']
    rfl
  have hrun : afterEdges 62 s =
      afterEdges 57 ((State.reset.setFields c a d v).withInputs (present .start :: waitInputs 56 ++ rest)) := by
    rw [show 62 = 1 + (4 + 57) from rfl, afterEdges_add, hreset, afterEdges_add, afterEdges_perm_writes rfl hws]
  obtain ⟨hdone, hcrc, herr⟩ :=
    afterEdges_start_wait (s := (State.reset.setFields c a d v).withInputs (present .start :: waitInputs 56 ++ rest)) rfl rfl
  rw [← hrun] at hdone hcrc herr
  refine ⟨_, runsTo_iff.2 rfl, (State.status_getElem_one _).trans hdone, hcrc, herr, ?_⟩
  simp [hrun, waitInputs]

/-! Several blocks in one system (R179). -/

/-- The system after an edge of block k. -/
def System.nextAt (k : Nat) (y : System) : System := ⟨y.instances.modify k nextState⟩

/-- The system after a sequence of edges. -/
def System.afterAll (es : List Nat) (y : System) : System := es.foldl (fun z k => z.nextAt k) y

/-- An edge of a block always has a next system. -/
theorem System.edgeAt_eq (k : Nat) (y : System) : System.edgeAt k y = .next (y.nextAt k) := by
  rw [edgeAt, nextAt, List.modify_eq_set_getElem?]
  cases y.instances[k]? with
  | none => rfl
  | some s => simp [step_eq_nextState]

theorem System.run_eq (es : List Nat) (y : System) : System.run es y = .next (y.afterAll es) := by
  induction es generalizing y with
  | nil => rfl
  | cons e es ih =>
    rw [run, edgeAt_eq]
    exact ih _

/-- After any edges a block is where its own edges lead. -/
theorem System.instances_afterAll (es : List Nat) (y : System) (k : Nat) :
    (y.afterAll es).instances[k]? = y.instances[k]?.map (afterEdges (es.count k)) := by
  induction es generalizing y with
  | nil => simp [afterAll, afterEdges]
  | cons e es ih =>
    rw [afterAll, List.foldl_cons]
    refine (ih _).trans ?_
    rw [nextAt, List.getElem?_modify, List.count_cons]
    by_cases h : e = k
    · simp [h, Function.comp_def, afterEdges]
    · simp [h]

/-- No edge changes the number of blocks. -/
theorem System.length_afterAll (es : List Nat) (y : System) : (y.afterAll es).instances.length = y.instances.length := by
  induction es generalizing y with
  | nil => rfl
  | cons e es ih => exact (ih _).trans (List.length_modify _ _ _)

/-- Settles O47: what a block is after any edges depends on its own state and on the number of its own edges
(`System.instances_afterAll`). -/
theorem instancesDoNotInterfere : Obligations.InstancesDoNotInterfere := by
  refine fun k es fs y z hyz hcount => ⟨_, _, System.run_eq es y, System.run_eq fs z, ?_, fun s hs => ?_, fun hy => ?_⟩
  · rw [System.instances_afterAll, System.instances_afterAll, hyz, hcount]
  · exact ⟨_, runsTo_iff.2 rfl, by rw [System.instances_afterAll, hs, Option.map_some]⟩
  · exact (System.length_afterAll es y).trans hy

end Sys2Proof.Machine
